-- ==== Sys2Proof/Word.lean ====
section
/-! DEFINITION. The words of the machine: bytes, 16-bit words, 12-bit addresses, nibbles and keys
(00_scope.md R4, R5: every value is unsigned; widths 8, 16, 12 and 4). -/

namespace Sys2Proof

/-- The contents of a register V0..VF or of one byte of memory (10_state.md R10, 20_memory.md R40). -/
abbrev Byte := BitVec 8

/-- The width of PC, of I, of a stack entry and of an instruction word (10_state.md R13, R17, R22;
30_encoding.md R60). -/
abbrev Word := BitVec 16

/-- The 12-bit field `nnn` of an instruction (30_encoding.md R62). -/
abbrev Addr := BitVec 12

/-- The 4-bit row count `n` of DRW (30_encoding.md R62). -/
abbrev Nibble := BitVec 4

/-- The value of a pressed key, 0x0..0xF. `NOKEY` is `none` of `Option Key` (10_state.md R25). -/
abbrev Key := BitVec 4

end Sys2Proof
end

