-- ==== Sys2Proof/Syntax.lean ====
section
/-! DEFINITION. The instructions: one constructor for each of the 36 rows of the opcode map
(30_encoding.md R66, opcode_table.json), with the operand fields of that row. An Illegal word is no
instruction (R67) and has no constructor. -/

namespace Sys2Proof

/-- The number of a general register, the 4-bit field `x` or `y` (10_state.md R10). -/
abbrev Reg := Fin 16

/-- The instruction set (30_encoding.md R66), in the order of its table. -/
inductive Instr
  /-- `END` 0000 (R96). -/
  | endSentinel
  /-- `CLS` 00E0 (R160). -/
  | cls
  /-- `RET` 00EE (R101). -/
  | ret
  /-- `SYS nnn` 0nnn (R97). -/
  | sys (nnn : Addr)
  /-- `JP nnn` 1nnn (R102). -/
  | jp (nnn : Addr)
  /-- `CALL nnn` 2nnn (R103). -/
  | call (nnn : Addr)
  /-- `SE Vx, kk` 3xkk (R104). -/
  | seImm (x : Reg) (kk : Byte)
  /-- `SNE Vx, kk` 4xkk (R105). -/
  | sneImm (x : Reg) (kk : Byte)
  /-- `SE Vx, Vy` 5xy0 (R106). -/
  | seReg (x y : Reg)
  /-- `LD Vx, kk` 6xkk (R120). -/
  | ldImm (x : Reg) (kk : Byte)
  /-- `ADD Vx, kk` 7xkk (R121). -/
  | addImm (x : Reg) (kk : Byte)
  /-- `LD Vx, Vy` 8xy0 (R122). -/
  | ldReg (x y : Reg)
  /-- `OR Vx, Vy` 8xy1 (R123). -/
  | or (x y : Reg)
  /-- `AND Vx, Vy` 8xy2 (R124). -/
  | and (x y : Reg)
  /-- `XOR Vx, Vy` 8xy3 (R125). -/
  | xor (x y : Reg)
  /-- `ADD Vx, Vy` 8xy4 (R126). -/
  | addReg (x y : Reg)
  /-- `SUB Vx, Vy` 8xy5 (R127). -/
  | sub (x y : Reg)
  /-- `SHR Vx` 8xy6. The field `y` is part of the word and has no effect (R128; log 3). -/
  | shr (x y : Reg)
  /-- `SUBN Vx, Vy` 8xy7 (R129). -/
  | subn (x y : Reg)
  /-- `SHL Vx` 8xyE. The field `y` is part of the word and has no effect (R130; log 3). -/
  | shl (x y : Reg)
  /-- `SNE Vx, Vy` 9xy0 (R107). -/
  | sneReg (x y : Reg)
  /-- `LD I, nnn` Annn (R140). -/
  | ldI (nnn : Addr)
  /-- `JP V0, nnn` Bnnn (R108). -/
  | jpV0 (nnn : Addr)
  /-- `RND Vx, kk` Cxkk (R135). -/
  | rnd (x : Reg) (kk : Byte)
  /-- `DRW Vx, Vy, n` Dxyn (R162). -/
  | drw (x y : Reg) (n : Nibble)
  /-- `SKP Vx` Ex9E (R177). -/
  | skp (x : Reg)
  /-- `SKNP Vx` ExA1 (R178). -/
  | sknp (x : Reg)
  /-- `LD Vx, DT` Fx07 (R170). -/
  | ldVxDT (x : Reg)
  /-- `LD Vx, K` Fx0A (R179). -/
  | ldVxK (x : Reg)
  /-- `LD DT, Vx` Fx15 (R171). -/
  | ldDTVx (x : Reg)
  /-- `LD ST, Vx` Fx18 (R172). -/
  | ldSTVx (x : Reg)
  /-- `ADD I, Vx` Fx1E (R142). -/
  | addIVx (x : Reg)
  /-- `LD F, Vx` Fx29 (R144). -/
  | ldFVx (x : Reg)
  /-- `LD B, Vx` Fx33 (R146). -/
  | ldBVx (x : Reg)
  /-- `LD [I], Vx` Fx55 (R148). -/
  | ldMemVx (x : Reg)
  /-- `LD Vx, [I]` Fx65 (R150). -/
  | ldVxMem (x : Reg)
  deriving DecidableEq, Repr

end Sys2Proof
end

