-- ==== Sys2Proof/WellFormed.lean ====
section
/-! DEFINITION. Which instruction terms stand for a word. The operand types already hold every
operand to its field's width (30_encoding.md R62, R71); what is left to check is that `SYS nnn` is
none of the three words of its group that rows 1 to 3 of the opcode map take (R64, R68, R97). -/

namespace Sys2Proof

/-- `SYS nnn` has `nnn` outside {0x000, 0x0E0, 0x0EE} (40_execution_cycle.md R97); every other term
is well formed as its type stands. -/
def Instr.wf : Instr → Bool
  | .sys nnn => nnn != 0x000#12 && nnn != 0x0E0#12 && nnn != 0x0EE#12
  | .endSentinel | .cls | .ret | .jp _ | .call _ | .seImm _ _ | .sneImm _ _ | .seReg _ _
  | .ldImm _ _ | .addImm _ _ | .ldReg _ _ | .or _ _ | .and _ _ | .xor _ _ | .addReg _ _
  | .sub _ _ | .shr _ _ | .subn _ _ | .shl _ _ | .sneReg _ _ | .ldI _ | .jpV0 _ | .rnd _ _
  | .drw _ _ _ | .skp _ | .sknp _ | .ldVxDT _ | .ldVxK _ | .ldDTVx _ | .ldSTVx _ | .addIVx _
  | .ldFVx _ | .ldBVx _ | .ldMemVx _ | .ldVxMem _ => true

end Sys2Proof
end

