-- ==== Sys2Proof/Decode.lean ====
section
/-! DEFINITION. The decoder (30_encoding.md R60 to R70), total on words and on bytes and rejecting by
name, the opcode map it agrees with (R66), and the encoder written from that map. -/

namespace Sys2Proof

/-- Why bytes are no instruction. -/
inductive DecodeError
  /-- The word matches no row of the opcode map: the tag Illegal (30_encoding.md R67). The cycle
  halts with IllegalOpcode on it (40_execution_cycle.md R98). -/
  | illegal (w : Word)
  /-- Fewer than the two bytes of an instruction were given (R70); a fetch always gives two. -/
  | truncated
  deriving DecidableEq, Repr

/-- `op = w[15:12]` (00_scope.md R6). -/
def fieldOp (w : Word) : BitVec 4 := w.extractLsb' 12 4

/-- `x = w[11:8]`, a register number (00_scope.md R6). -/
def fieldX (w : Word) : Reg := ⟨(w.extractLsb' 8 4).toNat, (w.extractLsb' 8 4).isLt⟩

/-- `y = w[7:4]`, a register number (00_scope.md R6). -/
def fieldY (w : Word) : Reg := ⟨(w.extractLsb' 4 4).toNat, (w.extractLsb' 4 4).isLt⟩

/-- `n = w[3:0]` (00_scope.md R6). -/
def fieldN (w : Word) : Nibble := w.extractLsb' 0 4

/-- `kk = w[7:0]` (00_scope.md R6). -/
def fieldKK (w : Word) : Byte := w.extractLsb' 0 8

/-- `nnn = w[11:0]` (00_scope.md R6). -/
def fieldNNN (w : Word) : Addr := w.extractLsb' 0 12

/-- Group 0 is matched on the whole word (30_encoding.md R64; log 2). -/
def decodeGroup0 (w : Word) : Instr :=
  if w = 0x0000#16 then .endSentinel
  else if w = 0x00E0#16 then .cls
  else if w = 0x00EE#16 then .ret
  else .sys (fieldNNN w)

/-- Group 8 is decoded by the low nibble (30_encoding.md R65). -/
def decodeGroup8 (w : Word) : Except DecodeError Instr :=
  let x := fieldX w
  let y := fieldY w
  match fieldN w with
  | 0x0#4 => .ok (.ldReg x y)
  | 0x1#4 => .ok (.or x y)
  | 0x2#4 => .ok (.and x y)
  | 0x3#4 => .ok (.xor x y)
  | 0x4#4 => .ok (.addReg x y)
  | 0x5#4 => .ok (.sub x y)
  | 0x6#4 => .ok (.shr x y)
  | 0x7#4 => .ok (.subn x y)
  | 0xE#4 => .ok (.shl x y)
  | _ => .error (.illegal w)

/-- Group 0xE is decoded by the low byte (30_encoding.md R65). -/
def decodeGroupE (w : Word) : Except DecodeError Instr :=
  let x := fieldX w
  match fieldKK w with
  | 0x9E#8 => .ok (.skp x)
  | 0xA1#8 => .ok (.sknp x)
  | _ => .error (.illegal w)

/-- Group 0xF is decoded by the low byte (30_encoding.md R65). -/
def decodeGroupF (w : Word) : Except DecodeError Instr :=
  let x := fieldX w
  match fieldKK w with
  | 0x07#8 => .ok (.ldVxDT x)
  | 0x0A#8 => .ok (.ldVxK x)
  | 0x15#8 => .ok (.ldDTVx x)
  | 0x18#8 => .ok (.ldSTVx x)
  | 0x1E#8 => .ok (.addIVx x)
  | 0x29#8 => .ok (.ldFVx x)
  | 0x33#8 => .ok (.ldBVx x)
  | 0x55#8 => .ok (.ldMemVx x)
  | 0x65#8 => .ok (.ldVxMem x)
  | _ => .error (.illegal w)

/-- The decode algorithm of 30_encoding.md R63: the group by `op`, then groups 0, 5, 8, 9, 0xE and
0xF further. -/
def decodeWord (w : Word) : Except DecodeError Instr :=
  match fieldOp w with
  | 0x0#4 => .ok (decodeGroup0 w)
  | 0x1#4 => .ok (.jp (fieldNNN w))
  | 0x2#4 => .ok (.call (fieldNNN w))
  | 0x3#4 => .ok (.seImm (fieldX w) (fieldKK w))
  | 0x4#4 => .ok (.sneImm (fieldX w) (fieldKK w))
  | 0x5#4 => if fieldN w = 0#4 then .ok (.seReg (fieldX w) (fieldY w)) else .error (.illegal w)
  | 0x6#4 => .ok (.ldImm (fieldX w) (fieldKK w))
  | 0x7#4 => .ok (.addImm (fieldX w) (fieldKK w))
  | 0x8#4 => decodeGroup8 w
  | 0x9#4 => if fieldN w = 0#4 then .ok (.sneReg (fieldX w) (fieldY w)) else .error (.illegal w)
  | 0xA#4 => .ok (.ldI (fieldNNN w))
  | 0xB#4 => .ok (.jpV0 (fieldNNN w))
  | 0xC#4 => .ok (.rnd (fieldX w) (fieldKK w))
  | 0xD#4 => .ok (.drw (fieldX w) (fieldY w) (fieldN w))
  | 0xE#4 => decodeGroupE w
  | _ => decodeGroupF w

/-- The decoder on bytes: the byte at the lower address is the high half of the word
(20_memory.md R43), and every instruction is two bytes (30_encoding.md R70). It answers the
instruction and the bytes after it. -/
def decodeBytes : List Byte → Except DecodeError (Instr × List Byte)
  | hi :: lo :: rest =>
    match decodeWord (hi ++ lo) with
    | .ok i => .ok (i, rest)
    | .error e => .error e
  | _ => .error .truncated

/-- One row of the opcode map: a word `w` is of the row iff `w & mask = pattern`, where no earlier
row takes it (30_encoding.md R66, columns "mask" and "match"). -/
structure OpcodeRow where
  mask : Word
  pattern : Word
  deriving DecidableEq, Repr

/-- Rows 1 to 3 take precedence over row 4 (30_encoding.md R66): the row of an instruction. -/
def Instr.row : Instr → OpcodeRow
  | .endSentinel => ⟨0xFFFF#16, 0x0000#16⟩
  | .cls => ⟨0xFFFF#16, 0x00E0#16⟩
  | .ret => ⟨0xFFFF#16, 0x00EE#16⟩
  | .sys _ => ⟨0xF000#16, 0x0000#16⟩
  | .jp _ => ⟨0xF000#16, 0x1000#16⟩
  | .call _ => ⟨0xF000#16, 0x2000#16⟩
  | .seImm _ _ => ⟨0xF000#16, 0x3000#16⟩
  | .sneImm _ _ => ⟨0xF000#16, 0x4000#16⟩
  | .seReg _ _ => ⟨0xF00F#16, 0x5000#16⟩
  | .ldImm _ _ => ⟨0xF000#16, 0x6000#16⟩
  | .addImm _ _ => ⟨0xF000#16, 0x7000#16⟩
  | .ldReg _ _ => ⟨0xF00F#16, 0x8000#16⟩
  | .or _ _ => ⟨0xF00F#16, 0x8001#16⟩
  | .and _ _ => ⟨0xF00F#16, 0x8002#16⟩
  | .xor _ _ => ⟨0xF00F#16, 0x8003#16⟩
  | .addReg _ _ => ⟨0xF00F#16, 0x8004#16⟩
  | .sub _ _ => ⟨0xF00F#16, 0x8005#16⟩
  | .shr _ _ => ⟨0xF00F#16, 0x8006#16⟩
  | .subn _ _ => ⟨0xF00F#16, 0x8007#16⟩
  | .shl _ _ => ⟨0xF00F#16, 0x800E#16⟩
  | .sneReg _ _ => ⟨0xF00F#16, 0x9000#16⟩
  | .ldI _ => ⟨0xF000#16, 0xA000#16⟩
  | .jpV0 _ => ⟨0xF000#16, 0xB000#16⟩
  | .rnd _ _ => ⟨0xF000#16, 0xC000#16⟩
  | .drw _ _ _ => ⟨0xF000#16, 0xD000#16⟩
  | .skp _ => ⟨0xF0FF#16, 0xE09E#16⟩
  | .sknp _ => ⟨0xF0FF#16, 0xE0A1#16⟩
  | .ldVxDT _ => ⟨0xF0FF#16, 0xF007#16⟩
  | .ldVxK _ => ⟨0xF0FF#16, 0xF00A#16⟩
  | .ldDTVx _ => ⟨0xF0FF#16, 0xF015#16⟩
  | .ldSTVx _ => ⟨0xF0FF#16, 0xF018#16⟩
  | .addIVx _ => ⟨0xF0FF#16, 0xF01E#16⟩
  | .ldFVx _ => ⟨0xF0FF#16, 0xF029#16⟩
  | .ldBVx _ => ⟨0xF0FF#16, 0xF033#16⟩
  | .ldMemVx _ => ⟨0xF0FF#16, 0xF055#16⟩
  | .ldVxMem _ => ⟨0xF0FF#16, 0xF065#16⟩

/-- The 4-bit field of a register number (00_scope.md R6). -/
def regBits (x : Reg) : BitVec 4 := BitVec.ofNat 4 x.val

/-- Format NNN: `nnn` in bits 11:0 (30_encoding.md R61). -/
def packNNN (nnn : Addr) : Word := 0#4 ++ nnn

/-- Format XKK: `x` in bits 11:8, `kk` in bits 7:0 (30_encoding.md R61). -/
def packXKK (x : Reg) (kk : Byte) : Word := 0#4 ++ regBits x ++ kk

/-- Formats XY, XYN and X: `x` in bits 11:8, `y` in bits 7:4, `n` in bits 3:0 (30_encoding.md R61). -/
def packXYN (x y : Reg) (n : Nibble) : Word := 0#4 ++ regBits x ++ regBits y ++ n

/-- The operand fields of an instruction, in their places (30_encoding.md R61, column "format" of
R66). -/
def Instr.operandBits : Instr → Word
  | .endSentinel | .cls | .ret => 0#16
  | .sys nnn | .jp nnn | .call nnn | .ldI nnn | .jpV0 nnn => packNNN nnn
  | .seImm x kk | .sneImm x kk | .ldImm x kk | .addImm x kk | .rnd x kk => packXKK x kk
  | .seReg x y | .ldReg x y | .or x y | .and x y | .xor x y | .addReg x y | .sub x y | .shr x y
  | .subn x y | .shl x y | .sneReg x y => packXYN x y 0#4
  | .drw x y n => packXYN x y n
  | .skp x | .sknp x | .ldVxDT x | .ldVxK x | .ldDTVx x | .ldSTVx x | .addIVx x | .ldFVx x
  | .ldBVx x | .ldMemVx x | .ldVxMem x => packXYN x 0 0#4

/-- The word of an instruction: the fixed bits of its row with its operand fields
(30_encoding.md R66). -/
def encode (i : Instr) : Word := i.row.pattern ||| i.operandBits

/-- The bytes of a word as the hardware stores them, the high byte first (20_memory.md R43). -/
def wordBytes (w : Word) : List Byte := [w.extractLsb' 8 8, w.extractLsb' 0 8]

/-- The instruction read from the low `nbits` bits of `w`, the bits above them 0, laid out as the
hardware stores a word (log 31). -/
def decodeTableWord (nbits w : Nat) : Option Instr :=
  match decodeBytes (wordBytes (BitVec.ofNat 16 (w % 2 ^ nbits))) with
  | .ok (i, _) => some i
  | .error _ => none

end Sys2Proof
end

