-- ==== Sys2Proof/Machine/Framebuffer.lean ====
section
/-! DEFINITION. The framebuffer `FB`, 32 rows of 64 one-bit cells, a space of its own
(10_state.md R23). -/

namespace Sys2Proof.Machine

/-- `FB[r][c]`: row `r` in 0..31, column `c` in 0..63 (10_state.md R23). -/
abbrev Framebuffer := Vector (Vector Bool 64) 32

/-- Every cell 0. -/
def Framebuffer.blank : Framebuffer := Vector.replicate 32 (Vector.replicate 64 false)

/-- The cell at row `r`, column `c`; outside the grid there is no cell and the answer is false
(log 28). -/
def Framebuffer.cell (fb : Framebuffer) (r c : Nat) : Bool :=
  if h : r < 32 ∧ c < 64 then (fb[r]'h.1)[c]'h.2 else false

/-- Write the cell at row `r`, column `c`; outside the grid nothing is written (log 28). -/
def Framebuffer.setCell (fb : Framebuffer) (r c : Nat) (b : Bool) : Framebuffer :=
  if h : r < 32 ∧ c < 64 then fb.set r ((fb[r]'h.1).set c b h.2) h.1 else fb

end Sys2Proof.Machine
end

