-- ==== Sys2Proof/Config.lean ====
section
/-! DEFINITION. What is fixed for the machine or free for it: the free values read from the input
streams. One constant each serves every state: that two states with the same counters read the same
free values, two machines after reset among them, is the model's choice and no rule of the spec
(log 32). The parameters with a default that a test could show wrong, the font and
`CYCLES_PER_FRAME`, stand in Machine/Parameters.lean. -/

namespace Sys2Proof

/-- FREE VALUE. Byte `k` of the input stream `rnd_in`, counted from 0: "a free 8-bit value at every
execution of RND, under no law" (42_alu.md R135; log 18). It has no body: no proof can use a value
of it. -/
opaque Config.rndIn : Nat → Byte

/-- FREE VALUE. What the input source reports at frame boundary `k`, counted from 0: NOKEY or a key
(10_state.md R25, 40_execution_cycle.md R93; log 18). -/
opaque Config.keyIn : Nat → Option Key

/-- FREE VALUE. The close request at frame boundary `k` (40_execution_cycle.md R94; log 18). -/
opaque Config.closeReq : Nat → Bool

/-- `FRAME_HZ`, 60 by default, on which no rule of the machine depends (00_scope.md R4,
70_reset_and_hazards.md R240). -/
def Config.frameHz : Nat := 60

end Sys2Proof
end

