-- ==== Sys2Proof/Machine/Parameters.lean ====
section
/-! DEFINITION. The parameters of the hardware that have a default (00_scope.md R4):
`CYCLES_PER_FRAME` and `FONT`. -/

namespace Sys2Proof

/-- `CYCLES_PER_FRAME`, default 12 (00_scope.md R4; log 23). `Machine.step` runs with it,
`Machine.stepAt` with any value. -/
def Config.cyclesPerFrame : Nat := 12

/-- The 80 bytes of the default font, five for each hexadecimal digit (70_reset_and_hazards.md R225;
log 21). -/
def Config.fontBytes : List Byte :=
  [0xF0#8, 0x90#8, 0x90#8, 0x90#8, 0xF0#8] ++ [0x20#8, 0x60#8, 0x20#8, 0x20#8, 0x70#8] ++
  [0xF0#8, 0x10#8, 0xF0#8, 0x80#8, 0xF0#8] ++ [0xF0#8, 0x10#8, 0xF0#8, 0x10#8, 0xF0#8] ++
  [0x90#8, 0x90#8, 0xF0#8, 0x10#8, 0x10#8] ++ [0xF0#8, 0x80#8, 0xF0#8, 0x10#8, 0xF0#8] ++
  [0xF0#8, 0x80#8, 0xF0#8, 0x90#8, 0xF0#8] ++ [0xF0#8, 0x10#8, 0x20#8, 0x40#8, 0x40#8] ++
  [0xF0#8, 0x90#8, 0xF0#8, 0x90#8, 0xF0#8] ++ [0xF0#8, 0x90#8, 0xF0#8, 0x10#8, 0xF0#8] ++
  [0xF0#8, 0x90#8, 0xF0#8, 0x90#8, 0x90#8] ++ [0xE0#8, 0x90#8, 0xE0#8, 0x90#8, 0xE0#8] ++
  [0xF0#8, 0x80#8, 0x80#8, 0x80#8, 0xF0#8] ++ [0xE0#8, 0x90#8, 0x90#8, 0x90#8, 0xE0#8] ++
  [0xF0#8, 0x80#8, 0xF0#8, 0x80#8, 0xF0#8] ++ [0xF0#8, 0x80#8, 0xF0#8, 0x80#8, 0x80#8]

/-- `FONT`, a byte string of exactly 80 bytes (00_scope.md R4). -/
abbrev Font := Vector Byte 80

/-- `IMAGE`, a byte string of at most `PROG_MAX = 3584` bytes; a longer one never reaches the core
(70_reset_and_hazards.md R224; 60_exceptions.md R206; log 22). -/
abbrev Image := { bytes : List Byte // bytes.length ≤ 3584 }

/-- The default `FONT` (70_reset_and_hazards.md R225). -/
def Config.font : Font := ⟨Config.fontBytes.toArray, by decide⟩

/-- The empty image, which is legal (70_reset_and_hazards.md R224). -/
def Config.emptyImage : Image := ⟨[], by decide⟩

end Sys2Proof
end

