-- ==== Sys2Proof/Machine/Memory.lean ====
section
/-! DEFINITION. Main memory `Mem`, 4096 bytes (20_memory.md R40 to R48), as a list of the cells that
differ from what memory holds after a reset with the default font and the empty image. -/

namespace Sys2Proof.Machine

/-- The cells that are listed: addresses strictly rising, below 4096, and none equal to what an
unlisted address reads as (`Memory.wf`). -/
abbrev Memory := List Host.Cell

/-- What an unlisted address reads as: the contents after a reset with the default font and the
empty image, that is the font at 0x000..0x04F and 0 elsewhere (10_state.md R30, 20_memory.md R47;
log 21). -/
def unlistedByte (a : Nat) : Byte := if a < 80 then Config.fontBytes.getD a 0#8 else 0#8

/-- The canonical form of a list whose addresses must be `lo` or more. -/
def Memory.wfFrom : Nat → Memory → Bool
  | _, [] => true
  | lo, (a, b) :: m => decide (lo ≤ a) && decide (a < 4096) && (b != unlistedByte a) && Memory.wfFrom (a + 1) m

/-- The canonical form: addresses strictly rising and below 4096, no entry equal to what an
unlisted address reads as. -/
def Memory.wf (m : Memory) : Bool := Memory.wfFrom 0 m

/-- The byte at an address below 4096. -/
def Memory.get : Memory → Nat → Byte
  | [], a => unlistedByte a
  | (k, b) :: m, a => if k = a then b else Memory.get m a

/-- Take the entry of `a` out. -/
def Memory.erase (m : Memory) (a : Nat) : Memory := m.filter (fun c => c.1 != a)

/-- Put an entry in at its place. -/
def Memory.insert : Memory → Nat → Byte → Memory
  | [], a, b => [(a, b)]
  | (k, c) :: m, a, b =>
    if a < k then (a, b) :: (k, c) :: m
    else if a = k then (a, b) :: m
    else (k, c) :: Memory.insert m a b

/-- The write of one byte at an address below 4096, keeping the canonical form. -/
def Memory.set (m : Memory) (a : Nat) (b : Byte) : Memory :=
  if b = unlistedByte a then m.erase a else m.insert a b

/-- `MemRead(addr, 1)`: the address is masked to 12 bits (00_scope.md R7, 20_memory.md R41). -/
def Memory.read (m : Memory) (addr : Nat) : Byte := m.get (addr % 4096)

/-- `MemWrite(addr, 1, v)`: the address is masked to 12 bits (00_scope.md R7, 20_memory.md R41). -/
def Memory.write (m : Memory) (addr : Nat) (b : Byte) : Memory := m.set (addr % 4096) b

/-- Single-byte writes in ascending address order from `addr`, each masked by itself
(20_memory.md R45). -/
def Memory.writeBytes (m : Memory) (addr : Nat) : List Byte → Memory
  | [] => m
  | b :: bs => Memory.writeBytes (m.write addr b) (addr + 1) bs

/-- Memory after a reset with a font and an image: zero, then the font at 0x000, then the image at
0x200 (70_reset_and_hazards.md R221). The list `[]` stands for zeros with the DEFAULT font, every
byte of which is then written over. -/
def Memory.afterReset (font : Font) (image : Image) : Memory :=
  (Memory.writeBytes [] 0x000 font.toList).writeBytes 0x200 image.val

end Sys2Proof.Machine
end

