-- ==== Sys2Proof/Machine/State.lean ====
section
/-! DEFINITION. The state of the core (10_state.md R29), the reasons a step can stop, and reset
(10_state.md R30, 70_reset_and_hazards.md R220). -/

namespace Sys2Proof.Machine

/-- The halt causes (60_exceptions.md R190). -/
inductive Cause
  /-- The value of `cause` while the core is not halted. -/
  | none
  /-- An Illegal word was executed. -/
  | illegalOpcode
  /-- SYS nnn was executed. -/
  | unsupportedSyscall
  /-- END was executed. -/
  | endSentinel
  /-- CALL with a full stack. -/
  | stackOverflow
  /-- RET with an empty stack. -/
  | stackUnderflow
  deriving DecidableEq, Repr

/-- The 3-bit code of a cause (60_exceptions.md R190; log 7). -/
def Cause.code : Cause → BitVec 3
  | .none => 0#3
  | .illegalOpcode => 1#3
  | .unsupportedSyscall => 2#3
  | .endSentinel => 3#3
  | .stackOverflow => 4#3
  | .stackUnderflow => 5#3

/-- What the collaborators answer at one frame boundary: the key reported and the close request
(40_execution_cycle.md R93, R94). -/
structure Poll where
  key : Option Key
  close : Bool
  deriving DecidableEq, Repr

/-- The complete state of the core (10_state.md R29), with the output `fb_out` and with what the
model itself keeps of the input streams. -/
structure State where
  /-- `Mem` (20_memory.md R40). -/
  mem : Memory
  /-- `V0..VF` (10_state.md R10). -/
  v : Vector Byte 16
  /-- The index register `I` (10_state.md R17). -/
  i : Word
  /-- The program counter: the address of the next fetch (10_state.md R13). -/
  pc : Word
  /-- `Stack[0..15]` (10_state.md R22). -/
  stack : Vector Word 16
  /-- The stack pointer: the count 0..16 of live entries (10_state.md R18). -/
  sp : Fin 17
  /-- The delay timer (10_state.md R19). -/
  dt : Byte
  /-- The sound timer (10_state.md R19). -/
  st : Byte
  /-- The framebuffer (10_state.md R23). -/
  fb : Framebuffer
  /-- The cycles already run in the current tick (10_state.md R24). -/
  cyc : Nat
  /-- The key latch, NOKEY or a key (10_state.md R25). -/
  key : Option Key
  /-- The core is halted (10_state.md R21). -/
  halted : Bool
  /-- The halt cause (60_exceptions.md R190). -/
  cause : Cause
  /-- A close request was sampled (10_state.md R21). -/
  closed : Bool
  /-- The output `fb_out`: the last frame presented, if any was (10_state.md R27, R30; log 26). -/
  fbOut : Option Framebuffer
  /-- THE MODEL'S OWN: how many frame boundaries have passed, so how many frames have been
  presented, and the number of the next poll (log 18). -/
  frames : Nat
  /-- THE MODEL'S OWN: the answers already known for the coming frame boundaries; after them the
  polls are free values (log 18). -/
  polls : List Poll
  /-- THE MODEL'S OWN: the bytes of `rnd_in` already known; after them the draws are free values
  (log 18). -/
  rndIn : List Byte
  /-- THE MODEL'S OWN: how many bytes of `rnd_in` have been consumed, so the number of the next draw
  (log 18). -/
  rndCount : Nat
  deriving DecidableEq, Repr

/-- A step that stops with a fault. No instruction raises one. -/
inductive Fault
  /-- Raised by `step` alone, on a core whose `halted` is set: the halted core has no step
  (60_exceptions.md R197). Safe: the model has no next state where the hardware has none
  (log 6). -/
  | haltedNoStep
  deriving DecidableEq, Repr

/-- A step for which there is no meaning. No instruction answers one. -/
inductive Refusal
  /-- An instruction that has no meaning yet, by its mnemonic: raised by `exec` alone. Safe: the
  run stops. No arm of this model raises it. -/
  | notModelled (mnemonic : String)
  /-- Raised by `step` alone, on a core whose `closed` is set: the closed core has no step and that
  is not a fault (60_exceptions.md R199). Safe: the model has no next state where the hardware has
  none (log 6). -/
  | closedNoStep
  deriving DecidableEq, Repr

/-- What the meaning of an instruction answers. -/
abbrev Result := Host.Outcome State Fault Refusal

/-- Reset with a font and an image, from any state (70_reset_and_hazards.md R220): every piece of
state at its value of 10_state.md R30. The values of `v`, `stack`, `fb`, `cyc`, `key`, `halted`,
`cause` and `closed` are the spec's decision D20 (log 19); the model's own fields start empty
(log 20). DESIGN CHOICE, unsafe: the counters of the free inputs start again at 0, so two machines
side by side, or one machine before and after a second reset, read the same free inputs in the model.
The spec leaves open how their inputs relate (log 32). -/
def State.resetWith (font : Font) (image : Image) : State where
  mem := Memory.afterReset font image
  v := Vector.replicate 16 0#8
  i := 0#16
  pc := 0x0200#16
  stack := Vector.replicate 16 0#16
  sp := 0
  dt := 0#8
  st := 0#8
  fb := Framebuffer.blank
  cyc := 0
  key := none
  halted := false
  cause := .none
  closed := false
  fbOut := none
  frames := 0
  polls := []
  rndIn := []
  rndCount := 0

/-- The machine right after reset with the default font and the empty image. Its memory,
`Memory.afterReset Config.font Config.emptyImage`, lists nothing, and is written so here. -/
def State.reset : State := { State.resetWith Config.font Config.emptyImage with mem := [] }

end Sys2Proof.Machine
end

