-- ==== Sys2Proof/Machine/Ops.lean ====
section
/-! DEFINITION. The named operations over registers, memory, the stack and the inputs
(00_scope.md R7), entering a halt (60_exceptions.md R196), fetch (40_execution_cycle.md R82) and the
frame boundary (R92). There is no return from a halt (60_exceptions.md R198): what leaves the halted
state is reset alone, `State.resetWith`. -/

namespace Sys2Proof.Machine

/-! ### Registers -/

/-- `V[r]` (00_scope.md R7). -/
def State.getV (s : State) (r : Reg) : Byte := s.v[r.val]

/-- `V[r] <- b` (00_scope.md R7). No register is hardwired (10_state.md R10). -/
def State.setV (s : State) (r : Reg) (b : Byte) : State := { s with v := s.v.set r.val b }

/-- `I <- w` (00_scope.md R7). -/
def State.setI (s : State) (w : Word) : State := { s with i := w }

/-- `DT <- b` (00_scope.md R7). -/
def State.setDT (s : State) (b : Byte) : State := { s with dt := b }

/-- `ST <- b` (00_scope.md R7). -/
def State.setST (s : State) (b : Byte) : State := { s with st := b }

/-- `pc <- w`, the address of the next fetch (00_scope.md R7, 40_execution_cycle.md R87). -/
def State.setPc (s : State) (w : Word) : State := { s with pc := w }

/-- `pc <- pc + 2`, modulo 2^16 (10_state.md R14). -/
def State.advance (s : State) : State := s.setPc (s.pc + 2#16)

/-- A skip: `pc <- pc + 4` when the condition holds, else `pc <- pc + 2`, modulo 2^16
(41_control_transfer.md R100). -/
def State.skipIf (s : State) (c : Bool) : State := s.setPc (if c then s.pc + 4#16 else s.pc + 2#16)

/-- The output `sound_out`: the level `ST != 0` (45_timers_keys.md R176). -/
def State.soundOut (s : State) : Bool := s.st != 0#8

/-! ### Memory -/

/-- `MemRead(addr, 1)` (00_scope.md R7). -/
def State.memRead (s : State) (addr : Nat) : Byte := s.mem.read addr

/-- Single-byte writes in ascending order from `addr` (20_memory.md R45). -/
def State.storeBytes (s : State) (addr : Nat) (bs : List Byte) : State :=
  { s with mem := s.mem.writeBytes addr bs }

/-- `V[k] <- MemRead(addr + k, 1)` for `k` below the count, ascending (43_index_memory.md R150). The
count is at most 16. -/
def State.loadRegs (s : State) (addr : Nat) : Nat → State
  | 0 => s
  | k + 1 => (s.loadRegs addr k).setV (Fin.ofNat 16 k) (s.memRead (addr + k))

/-! ### The stack -/

/-- `Stack[k] <- w; SP <- k + 1` for the entry `k = SP` of a stack that is not full
(41_control_transfer.md R103; log 8). -/
def State.pushAt (s : State) (k : Fin 16) (w : Word) : State :=
  { s with stack := s.stack.set k.val w, sp := k.succ }

/-- `SP <- k`, for the top entry `k = SP - 1` of a stack that is not empty; the entry is not erased
(41_control_transfer.md R101, 10_state.md R22). -/
def State.popTo (s : State) (k : Fin 16) : State := { s with sp := k.castSucc }

/-! ### The framebuffer -/

/-- Replace the framebuffer. -/
def State.setFB (s : State) (fb : Framebuffer) : State := { s with fb := fb }

/-! ### The inputs -/

/-- The next byte of `rnd_in`: a known one, else the free value numbered by the count of draws
(42_alu.md R135; log 18). -/
def State.rndByte (s : State) : Byte := s.rndIn.headD (Config.rndIn s.rndCount)

/-- That byte is consumed (42_alu.md R135). -/
def State.consumeRnd (s : State) : State :=
  { s with rndIn := s.rndIn.tail, rndCount := s.rndCount + 1 }

/-- What the collaborators answer at the coming frame boundary: a known poll, else the free values
numbered by the count of boundaries (40_execution_cycle.md R93, R94; log 18). -/
def State.poll (s : State) : Poll :=
  s.polls.headD { key := Config.keyIn s.frames, close := Config.closeReq s.frames }

/-! ### Halt -/

/-- `raise Halt(c)`: `halted <- 1`, `cause <- c`, and nothing else (60_exceptions.md R196). -/
def State.raiseHalt (s : State) (c : Cause) : State := { s with halted := true, cause := c }

/-! ### The cycle -/

/-- The two bytes of `MemRead(pc, 2)`, each address masked by itself (40_execution_cycle.md R82,
20_memory.md R44). -/
def State.fetchBytes (s : State) : List Byte := [s.memRead s.pc.toNat, s.memRead (s.pc.toNat + 1)]

/-- The fetched word `MemRead(pc, 2)`, big-endian (20_memory.md R43). -/
def State.fetchWord (s : State) : Word := s.memRead s.pc.toNat ++ s.memRead (s.pc.toNat + 1)

/-- The low `nbits` bits of `w` as the instruction word at the address `step` fetches from
(log 31). -/
def State.placeWord (s : State) (nbits w : Nat) : State :=
  s.storeBytes s.pc.toNat (wordBytes (BitVec.ofNat 16 (w % 2 ^ nbits)))

/-- A timer counts down by 1 if it is not 0 (40_execution_cycle.md R91). -/
def tickDown (b : Byte) : Byte := if b = 0#8 then b else b - 1#8

/-- The frame boundary (40_execution_cycle.md R92): the timers count down, the framebuffer is
presented, the key is latched, the close request is sampled, `cyc` starts again. -/
def State.frameBoundary (s : State) : State :=
  { s with
    dt := tickDown s.dt
    st := tickDown s.st
    fbOut := some s.fb
    key := s.poll.key
    closed := s.closed || s.poll.close
    cyc := 0
    frames := s.frames + 1
    polls := s.polls.tail }

/-- `cyc <- cyc + 1`, and the frame boundary when the tick is full (40_execution_cycle.md R81 step 5,
R95). `cpf` is `CYCLES_PER_FRAME`. -/
def State.countCycle (s : State) (cpf : Nat) : State :=
  if s.cyc + 1 = cpf then State.frameBoundary { s with cyc := s.cyc + 1 } else { s with cyc := s.cyc + 1 }

/-- What follows an execute: on Halt nothing, on Continue the cycle is counted
(40_execution_cycle.md R81 steps 3 to 5, R95). An execute that halts is one that sets `halted`. -/
def finishCycle (cpf : Nat) : Result → Result
  | .next t => .next (if t.halted then t else t.countCycle cpf)
  | .fault r => .fault r
  | .refused r => .refused r

end Sys2Proof.Machine
end

