-- ==== Sys2Proof/Machine/Flags.lean ====
section
/-! DEFINITION. The flag VF (10_state.md R11, R15): what sets it and when it is written. -/

namespace Sys2Proof.Machine

/-- VF, register 15, the only flag (10_state.md R11). -/
def regVF : Reg := 15

/-- A flag is always exactly 0 or 1 (10_state.md R15). -/
def flagByte (c : Bool) : Byte := if c then 1#8 else 0#8

/-- The 9-bit sum `zext_9(a) + zext_9(b)` (42_alu.md R126). -/
def sum9 (a b : Byte) : BitVec 9 := a.setWidth 9 + b.setWidth 9

/-- The low 8 bits of the 9-bit sum (42_alu.md R126). -/
def sumLow (a b : Byte) : Byte := (sum9 a b).setWidth 8

/-- The carry, bit 8 of the 9-bit sum (42_alu.md R126). -/
def carryFlag (a b : Byte) : Byte := flagByte ((sum9 a b).getLsbD 8)

/-- 1 iff `a > b`, strictly; 0 when they are equal (42_alu.md R127, R129; 90_conflicts.md C2;
log 10). -/
def greaterFlag (a b : Byte) : Byte := flagByte (decide (b.toNat < a.toNat))

/-- The bit shifted out to the right, bit 0 (42_alu.md R128). -/
def lowBitFlag (a : Byte) : Byte := flagByte (a.getLsbD 0)

/-- The bit shifted out to the left, bit 7 (42_alu.md R130). -/
def highBitFlag (a : Byte) : Byte := flagByte (a.getLsbD 7)

/-- The result is written first and the flag last, so that VF ends holding the flag when the
destination is VF (42_alu.md R119; log 9). -/
def State.setResultAndFlag (s : State) (x : Reg) (res flag : Byte) : State :=
  (s.setV x res).setV regVF flag

end Sys2Proof.Machine
end

