-- ==== Sys2Proof/Machine/Alu.lean ====
section
/-! DEFINITION. Register loads, arithmetic, logic and random (42_alu.md R118 to R135). Every meaning
reads its sources first and writes afterwards (R119) and ends with `pc <- pc + 2`. -/

namespace Sys2Proof.Machine

/-- LD Vx, kk (R120). -/
def execLdImm (x : Reg) (kk : Byte) (s : State) : Result := .next (s.setV x kk).advance

/-- ADD Vx, kk: modulo 256, no flag (R121). -/
def execAddImm (x : Reg) (kk : Byte) (s : State) : Result :=
  .next (s.setV x (s.getV x + kk)).advance

/-- LD Vx, Vy (R122). -/
def execLdReg (x y : Reg) (s : State) : Result := .next (s.setV x (s.getV y)).advance

/-- OR Vx, Vy: no flag (R123). -/
def execOr (x y : Reg) (s : State) : Result := .next (s.setV x (s.getV x ||| s.getV y)).advance

/-- AND Vx, Vy: no flag (R124). -/
def execAnd (x y : Reg) (s : State) : Result := .next (s.setV x (s.getV x &&& s.getV y)).advance

/-- XOR Vx, Vy: no flag (R125). -/
def execXor (x y : Reg) (s : State) : Result := .next (s.setV x (s.getV x ^^^ s.getV y)).advance

/-- ADD Vx, Vy: the 9-bit sum, VF the carry (R126). -/
def execAddReg (x y : Reg) (s : State) : Result :=
  let a := s.getV x
  let b := s.getV y
  .next (s.setResultAndFlag x (sumLow a b) (carryFlag a b)).advance

/-- SUB Vx, Vy: VF = 1 iff the minuend is the greater (R127). -/
def execSub (x y : Reg) (s : State) : Result :=
  let a := s.getV x
  let b := s.getV y
  .next (s.setResultAndFlag x (a - b) (greaterFlag a b)).advance

/-- SHR Vx: the field `y` is ignored (R128). -/
def execShr (x _y : Reg) (s : State) : Result :=
  let a := s.getV x
  .next (s.setResultAndFlag x (a >>> 1) (lowBitFlag a)).advance

/-- SUBN Vx, Vy: subtract reversed (R129). -/
def execSubn (x y : Reg) (s : State) : Result :=
  let a := s.getV x
  let b := s.getV y
  .next (s.setResultAndFlag x (b - a) (greaterFlag b a)).advance

/-- SHL Vx: the field `y` is ignored (R130). -/
def execShl (x _y : Reg) (s : State) : Result :=
  let a := s.getV x
  .next (s.setResultAndFlag x (a <<< 1) (highBitFlag a)).advance

/-- RND Vx, kk: one byte of `rnd_in` is consumed whatever `kk` is (R135). -/
def execRnd (x : Reg) (kk : Byte) (s : State) : Result :=
  .next (s.consumeRnd.setV x (s.rndByte &&& kk)).advance

end Sys2Proof.Machine
end

