-- ==== Sys2Proof/Machine/Operands.lean ====
section
/-! DEFINITION. The operand forms (30_encoding.md R62, 43_index_memory.md R141): zero-extended
immediates, the block of memory at `I`, the registers V0..Vx, the decimal digits of a register, the
columns of a sprite byte, the key latch. -/

namespace Sys2Proof.Machine

/-- `zext_16(nnn)` (30_encoding.md R62). -/
def zextAddr (nnn : Addr) : Word := nnn.setWidth 16

/-- `zext_16(b)` (00_scope.md R5). -/
def zextByte (b : Byte) : Word := b.setWidth 16

/-- `zext_8(key)` (45_timers_keys.md R177, R179). -/
def zextKey (k : Key) : Byte := k.setWidth 8

/-- The base of the one addressing mode: byte `k` of the block is at `(I + k) & 0xFFF`, the mask
being taken at each access (43_index_memory.md R141). -/
def State.blockBase (s : State) : Nat := s.i.toNat

/-- `V[0], ..., V[x]` (43_index_memory.md R148). -/
def State.firstRegs (s : State) (x : Reg) : List Byte := s.v.toList.take (x.val + 1)

/-- The hundreds, tens and ones digits of a byte (43_index_memory.md R146). -/
def bcdDigits (b : Byte) : List Byte :=
  [BitVec.ofNat 8 (b.toNat / 100), BitVec.ofNat 8 (b.toNat / 10 % 10), BitVec.ofNat 8 (b.toNat % 10)]

/-- Column `col` of a sprite byte is its bit `7 - col` (44_display.md R161; log 14). -/
def spriteBit (b : Byte) (col : Nat) : Bool := b.getLsbD (7 - col)

/-- The latched key is `b`: all 8 bits are compared, and NOKEY equals no byte
(45_timers_keys.md R175, R177; log 16). -/
def State.keyIs (s : State) (b : Byte) : Bool :=
  match s.key with
  | none => false
  | some k => zextKey k == b

end Sys2Proof.Machine
end

