-- ==== Sys2Proof/Machine/Control.lean ====
section
/-! DEFINITION. Control transfer (41_control_transfer.md R100 to R108). -/

namespace Sys2Proof.Machine

/-- RET (R101): an empty stack halts; else the top entry, the address of a CALL, is popped and the
next fetch is 2 past it. -/
def execRet (s : State) : Result :=
  if h : s.sp.val = 0 then .next (s.raiseHalt .stackUnderflow)
  else
    have hk : s.sp.val - 1 < 16 := by have := s.sp.isLt; omega
    .next ((s.popTo ⟨s.sp.val - 1, hk⟩).setPc (s.stack[s.sp.val - 1] + 2#16))

/-- JP nnn (R102). -/
def execJp (nnn : Addr) (s : State) : Result := .next (s.setPc (zextAddr nnn))

/-- CALL nnn (R103): a full stack halts; else the CALL's own address is pushed. -/
def execCall (nnn : Addr) (s : State) : Result :=
  if h : s.sp.val < 16 then .next ((s.pushAt ⟨s.sp.val, h⟩ s.pc).setPc (zextAddr nnn))
  else .next (s.raiseHalt .stackOverflow)

/-- SE Vx, kk (R104). -/
def execSeImm (x : Reg) (kk : Byte) (s : State) : Result := .next (s.skipIf (s.getV x == kk))

/-- SNE Vx, kk (R105). -/
def execSneImm (x : Reg) (kk : Byte) (s : State) : Result := .next (s.skipIf (s.getV x != kk))

/-- SE Vx, Vy (R106). -/
def execSeReg (x y : Reg) (s : State) : Result := .next (s.skipIf (s.getV x == s.getV y))

/-- SNE Vx, Vy (R107). -/
def execSneReg (x y : Reg) (s : State) : Result := .next (s.skipIf (s.getV x != s.getV y))

/-- JP V0, nnn (R108): the sum is not masked when it is written (log 24). -/
def execJpV0 (nnn : Addr) (s : State) : Result :=
  .next (s.setPc (zextAddr nnn + zextByte (s.getV 0)))

end Sys2Proof.Machine
end

