-- ==== Sys2Proof/Machine/Display.lean ====
section
/-! DEFINITION. The display instructions (44_display.md R160 to R165). -/

namespace Sys2Proof.Machine

/-- The framebuffer in the middle of a draw, and whether a cell has collided so far. -/
structure Drawing where
  fb : Framebuffer
  collided : Bool
  deriving DecidableEq, Repr

/-- One cell of a draw: a cell outside the grid is skipped, else the bit is XORed in and a set bit
over a set cell is a collision, tested on the value before the XOR (44_display.md R162 to R164). The
coordinates are unbounded naturals (log 13). -/
def Drawing.plot (d : Drawing) (cy cx : Nat) (bit : Bool) : Drawing :=
  if 63 < cx ∨ 31 < cy then d
  else
    { fb := d.fb.setCell cy cx (d.fb.cell cy cx ^^ bit)
      collided := d.collided || (bit && d.fb.cell cy cx) }

/-- The first `n` columns of one sprite byte, left to right (44_display.md R162). -/
def Drawing.plotColumns (d : Drawing) (b : Byte) (cy X : Nat) : Nat → Drawing
  | 0 => d
  | col + 1 => (d.plotColumns b cy X col).plot cy (X + col) (spriteBit b col)

/-- The first `n` rows of the sprite whose bytes start at `addr`, top to bottom (44_display.md
R162). -/
def Drawing.plotRows (d : Drawing) (mem : Memory) (addr Y X : Nat) : Nat → Drawing
  | 0 => d
  | row + 1 => (d.plotRows mem addr Y X row).plotColumns (mem.read (addr + row)) (Y + row) X 8

/-- CLS: every cell 0, VF unchanged (R160). -/
def execCls (s : State) : Result := .next (s.setFB Framebuffer.blank).advance

/-- DRW Vx, Vy, n: both coordinates are read before anything is written; VF receives the collision
last, on every execution (R162; for `n = 0` see log 15). -/
def execDrw (x y : Reg) (n : Nibble) (s : State) : Result :=
  let d := Drawing.plotRows ⟨s.fb, false⟩ s.mem s.blockBase (s.getV y).toNat (s.getV x).toNat n.toNat
  .next ((s.setFB d.fb).setV regVF (flagByte d.collided)).advance

end Sys2Proof.Machine
end

