-- ==== Sys2Proof/Machine/Halting.lean ====
section
/-! DEFINITION. The encodings that only halt (40_execution_cycle.md R96, R97) and the Illegal word
(R98). -/

namespace Sys2Proof.Machine

/-- END: `raise Halt(EndSentinel)` (R96). -/
def execEndSentinel (s : State) : Result := .next (s.raiseHalt .endSentinel)

/-- SYS nnn: `raise Halt(UnsupportedSyscall)`; the operand is ignored (R97). -/
def execSys (_nnn : Addr) (s : State) : Result := .next (s.raiseHalt .unsupportedSyscall)

/-- A word that is no instruction: `raise Halt(IllegalOpcode)` (R98; log 4). -/
def illegalWord (s : State) : Result := .next (s.raiseHalt .illegalOpcode)

end Sys2Proof.Machine
end

