-- ==== Sys2Proof/Machine/IndexMemory.lean ====
section
/-! DEFINITION. The index register and memory transfer (43_index_memory.md R140 to R150). Every
meaning ends with `pc <- pc + 2`; no block access changes `I` (R141; log 11). -/

namespace Sys2Proof.Machine

/-- LD I, nnn (R140). -/
def execLdI (nnn : Addr) (s : State) : Result := .next (s.setI (zextAddr nnn)).advance

/-- ADD I, Vx: modulo 2^16, no flag, not masked to 12 bits (R142). -/
def execAddIVx (x : Reg) (s : State) : Result :=
  .next (s.setI (s.i + zextByte (s.getV x))).advance

/-- LD F, Vx: five times all 8 bits of the register (R144; log 12). -/
def execLdFVx (x : Reg) (s : State) : Result :=
  .next (s.setI (zextByte (s.getV x) * 5#16)).advance

/-- LD B, Vx: the three decimal digits (R146). -/
def execLdBVx (x : Reg) (s : State) : Result :=
  .next (s.storeBytes s.blockBase (bcdDigits (s.getV x))).advance

/-- LD [I], Vx: V0..Vx to memory (R148). -/
def execLdMemVx (x : Reg) (s : State) : Result :=
  .next (s.storeBytes s.blockBase (s.firstRegs x)).advance

/-- LD Vx, [I]: memory to V0..Vx (R150). -/
def execLdVxMem (x : Reg) (s : State) : Result :=
  .next (s.loadRegs s.blockBase (x.val + 1)).advance

end Sys2Proof.Machine
end

