-- ==== Sys2Proof/Machine/TimersKeys.lean ====
section
/-! DEFINITION. The timer and key instructions (45_timers_keys.md R170 to R179). -/

namespace Sys2Proof.Machine

/-- SKP Vx (R177). -/
def execSkp (x : Reg) (s : State) : Result := .next (s.skipIf (s.keyIs (s.getV x)))

/-- SKNP Vx: the exact complement of SKP (R178). -/
def execSknp (x : Reg) (s : State) : Result := .next (s.skipIf (!s.keyIs (s.getV x)))

/-- LD Vx, DT: the read never waits (R170). -/
def execLdVxDT (x : Reg) (s : State) : Result := .next (s.setV x s.dt).advance

/-- LD Vx, K: while no key is latched the program counter stays on this instruction, else the key is
stored (R179; log 17). -/
def execLdVxK (x : Reg) (s : State) : Result :=
  match s.key with
  | none => .next (s.setPc s.pc)
  | some k => .next (s.setV x (zextKey k)).advance

/-- LD DT, Vx (R171). -/
def execLdDTVx (x : Reg) (s : State) : Result := .next (s.setDT (s.getV x)).advance

/-- LD ST, Vx (R172). -/
def execLdSTVx (x : Reg) (s : State) : Result := .next (s.setST (s.getV x)).advance

end Sys2Proof.Machine
end

