-- ==== Sys2Proof/Machine/Cycle.lean ====
section
/-! DEFINITION. The cycle (40_execution_cycle.md R81 to R84, R95) for any value of
`CYCLES_PER_FRAME`. -/

namespace Sys2Proof.Machine

/-- One cycle, with the frame boundary when it is due (R95). A halted or closed core has no step
(60_exceptions.md R197, R199; log 6). `cpf` is `CYCLES_PER_FRAME`. -/
def stepAt (cpf : Nat) (s : State) : Result :=
  if s.halted then .fault .haltedNoStep
  else if s.closed then .refused .closedNoStep
  else
    match decodeBytes s.fetchBytes with
    | .ok (i, _) => finishCycle cpf (exec i s)
    | .error _ => finishCycle cpf (illegalWord s)

end Sys2Proof.Machine
end

