-- ==== Sys2Proof/Machine/Step.lean ====
section
/-! DEFINITION. The step of the core (40_execution_cycle.md R95) with the default `CYCLES_PER_FRAME`,
and the placing of an instruction where the step fetches it. -/

namespace Sys2Proof.Machine

/-- The step function (40_execution_cycle.md R95), at `CYCLES_PER_FRAME`'s default (00_scope.md R4;
log 23). -/
def step (s : State) : Host.Outcome State Fault Refusal := stepAt Config.cyclesPerFrame s

/-- `s` with the instruction of the low `nbits` bits of `w` stored where `step` fetches its next
instruction; nothing else changes (log 22, 31). -/
def State.withFetchWord (s : State) (nbits w : Nat) : State := s.placeWord nbits w

end Sys2Proof.Machine
end

