-- ==== Sys2Proof/Safety.lean ====
section
/-! DEFINITION. The terms the claims are stated in: how a run ends (60_exceptions.md R207), the
invariant of the core, and what an instruction leaves unchanged. -/

namespace Sys2Proof.Safety

open Sys2Proof.Machine

/-! ### The end of a run -/

/-- The core performs cycles: it is neither halted nor closed (40_execution_cycle.md R81). -/
def Running (s : State) : Prop := s.halted = false ∧ s.closed = false

/-- The usual end of a program: halted by the END word (60_exceptions.md R197, R207). -/
def EndedByEnd (s : State) : Prop := s.halted = true ∧ s.cause = .endSentinel

/-- Halted by an error of the program (60_exceptions.md R197). -/
def EndedByError (s : State) : Prop := s.halted = true ∧ s.cause ≠ .endSentinel

/-! ### The invariant -/

/-- What holds of the core at reset and after every step, for a value of `CYCLES_PER_FRAME`. -/
structure Inv (cpf : Nat) (s : State) : Prop where
  /-- The memory list is in canonical form. -/
  mem_wf : s.mem.wf = true
  /-- `cause` is None exactly while the core is not halted (60_exceptions.md R190). -/
  cause_iff : s.cause = .none ↔ s.halted = false
  /-- `cyc` is in 0..CYCLES_PER_FRAME-1 (10_state.md R24). -/
  cyc_lt : s.cyc < cpf
  /-- A halt and a close request cannot coincide (60_exceptions.md R194). -/
  not_both : ¬(s.halted = true ∧ s.closed = true)
  /-- The core closes at a frame boundary only (40_execution_cycle.md R94). -/
  closed_at_boundary : s.closed = true → s.cyc = 0
  /-- A frame has been presented exactly when a boundary has passed (40_execution_cycle.md R93). -/
  presented_iff : s.fbOut = none ↔ s.frames = 0

/-! ### What stays unchanged from `s` to `t` -/

/-- Every general register outside the list is unchanged. -/
def KeepsRegsBut (written : List Reg) (s t : State) : Prop :=
  ∀ r : Reg, r ∉ written → t.getV r = s.getV r

/-- Every byte of memory reads as before. -/
def KeepsMemory (s t : State) : Prop := ∀ a : Nat, t.memRead a = s.memRead a

/-- Every byte of memory outside the `n` bytes from `addr`, each masked to 12 bits, reads as
before. -/
def KeepsMemoryOutside (addr n : Nat) (s t : State) : Prop :=
  ∀ a : Nat, (∀ k : Nat, k < n → a % 4096 ≠ (addr + k) % 4096) → t.memRead a = s.memRead a

/-- The return stack and its pointer are unchanged. -/
def KeepsStack (s t : State) : Prop := t.sp = s.sp ∧ t.stack = s.stack

/-- Both timers are unchanged. -/
def KeepsTimers (s t : State) : Prop := t.dt = s.dt ∧ t.st = s.st

/-- Every cell of the framebuffer is unchanged. -/
def KeepsDisplay (s t : State) : Prop := ∀ r c : Nat, t.fb.cell r c = s.fb.cell r c

/-- What no instruction but a halting one writes: the run state, the cycle counter, the key latch,
the presented frame and the polls. -/
def KeepsRun (s t : State) : Prop :=
  t.halted = s.halted ∧ t.cause = s.cause ∧ t.closed = s.closed ∧ t.cyc = s.cyc ∧ t.key = s.key ∧
    t.fbOut = s.fbOut ∧ t.frames = s.frames ∧ t.polls = s.polls

/-- The stream of random bytes is not consumed. -/
def KeepsDraws (s t : State) : Prop := t.rndIn = s.rndIn ∧ t.rndCount = s.rndCount

/-- Everything but the general registers, the program counter and the draws is unchanged. -/
def KeepsAllButRegsAndDraws (s t : State) : Prop :=
  t.i = s.i ∧ KeepsMemory s t ∧ KeepsStack s t ∧ KeepsTimers s t ∧ KeepsDisplay s t ∧ KeepsRun s t

/-- Everything but the general registers and the program counter is unchanged. -/
def KeepsAllButRegs (s t : State) : Prop := KeepsAllButRegsAndDraws s t ∧ KeepsDraws s t

/-- Nothing but the listed registers and the program counter changes. -/
def OnlyRegs (written : List Reg) (s t : State) : Prop :=
  KeepsRegsBut written s t ∧ KeepsAllButRegs s t

/-- Nothing but the program counter changes. -/
def OnlyPc (s t : State) : Prop := OnlyRegs [] s t

/-- Nothing but the index register and the program counter changes. -/
def OnlyIndex (s t : State) : Prop :=
  KeepsRegsBut [] s t ∧ KeepsMemory s t ∧ KeepsStack s t ∧ KeepsTimers s t ∧
    KeepsDisplay s t ∧ KeepsRun s t ∧ KeepsDraws s t

/-- Nothing but the `n` bytes of memory from `addr` and the program counter changes. -/
def OnlyMemory (addr n : Nat) (s t : State) : Prop :=
  KeepsRegsBut [] s t ∧ t.i = s.i ∧ KeepsMemoryOutside addr n s t ∧ KeepsStack s t ∧
    KeepsTimers s t ∧ KeepsDisplay s t ∧ KeepsRun s t ∧ KeepsDraws s t

/-- Nothing but the return stack, its pointer and the program counter changes. -/
def OnlyStack (s t : State) : Prop :=
  KeepsRegsBut [] s t ∧ t.i = s.i ∧ KeepsMemory s t ∧ KeepsTimers s t ∧
    KeepsDisplay s t ∧ KeepsRun s t ∧ KeepsDraws s t

/-- Nothing but the listed registers, the framebuffer and the program counter changes. -/
def OnlyDisplay (written : List Reg) (s t : State) : Prop :=
  KeepsRegsBut written s t ∧ t.i = s.i ∧ KeepsMemory s t ∧ KeepsStack s t ∧ KeepsTimers s t ∧
    KeepsRun s t ∧ KeepsDraws s t

/-- Nothing but the two timers and the program counter changes. -/
def OnlyTimers (s t : State) : Prop :=
  KeepsRegsBut [] s t ∧ t.i = s.i ∧ KeepsMemory s t ∧ KeepsStack s t ∧
    KeepsDisplay s t ∧ KeepsRun s t ∧ KeepsDraws s t

/-- Nothing at all but `halted` and `cause` changes: a halt (60_exceptions.md R196). -/
def OnlyHalt (c : Cause) (s t : State) : Prop :=
  t.halted = true ∧ t.cause = c ∧ t = { s with halted := t.halted, cause := t.cause }

/-! ### Which instruction may write what -/

/-- The instruction may write register `r` (10_state.md R12, the rows "write"). -/
def mayWriteReg (i : Instr) (r : Reg) : Bool :=
  match i with
  | .ldImm x _ | .addImm x _ | .ldReg x _ | .or x _ | .and x _ | .xor x _ | .rnd x _
  | .ldVxDT x | .ldVxK x => r == x
  | .addReg x _ | .sub x _ | .shr x _ | .subn x _ | .shl x _ => r == x || r == 15
  | .drw _ _ _ => r == 15
  | .ldVxMem x => decide (r.val ≤ x.val)
  | .endSentinel | .cls | .ret | .sys _ | .jp _ | .call _ | .seImm _ _ | .sneImm _ _ | .seReg _ _
  | .sneReg _ _ | .ldI _ | .jpV0 _ | .skp _ | .sknp _ | .ldDTVx _ | .ldSTVx _ | .addIVx _
  | .ldFVx _ | .ldBVx _ | .ldMemVx _ => false

/-- The instruction writes VF as a flag (10_state.md R11). -/
def setsFlag (i : Instr) : Bool :=
  match i with
  | .addReg _ _ | .sub _ _ | .shr _ _ | .subn _ _ | .shl _ _ | .drw _ _ _ => true
  | .endSentinel | .cls | .ret | .sys _ | .jp _ | .call _ | .seImm _ _ | .sneImm _ _ | .seReg _ _
  | .ldImm _ _ | .addImm _ _ | .ldReg _ _ | .or _ _ | .and _ _ | .xor _ _ | .sneReg _ _ | .ldI _
  | .jpV0 _ | .rnd _ _ | .skp _ | .sknp _ | .ldVxDT _ | .ldVxK _ | .ldDTVx _ | .ldSTVx _
  | .addIVx _ | .ldFVx _ | .ldBVx _ | .ldMemVx _ | .ldVxMem _ => false

/-- How an instruction moves the program counter (10_state.md R14 (a)). -/
inductive PcMove
  /-- By 2, always. -/
  | two
  /-- By 2, or by 4 when the condition of the skip holds. -/
  | skip
  /-- By 2, or by 0 while no key is latched. -/
  | wait
  /-- To a target. -/
  | target
  /-- Not at all: the encoding halts. -/
  | stay
  deriving DecidableEq, Repr

/-- The move of each instruction (10_state.md R14 (a)). -/
def pcMove (i : Instr) : PcMove :=
  match i with
  | .endSentinel | .sys _ => .stay
  | .ret | .jp _ | .call _ | .jpV0 _ => .target
  | .seImm _ _ | .sneImm _ _ | .seReg _ _ | .sneReg _ _ | .skp _ | .sknp _ => .skip
  | .ldVxK _ => .wait
  | .cls | .ldImm _ _ | .addImm _ _ | .ldReg _ _ | .or _ _ | .and _ _ | .xor _ _ | .addReg _ _
  | .sub _ _ | .shr _ _ | .subn _ _ | .shl _ _ | .ldI _ | .rnd _ _ | .drw _ _ _ | .ldVxDT _
  | .ldDTVx _ | .ldSTVx _ | .addIVx _ | .ldFVx _ | .ldBVx _ | .ldMemVx _ | .ldVxMem _ => .two

/-! ### What a sprite draw touches -/

/-- The sprite drawn at column `X`, row `Y` from `addr` with `n` rows has a set bit on the grid cell
in row `r`, column `c` (44_display.md R161 to R163): row `r - Y` of the sprite is byte `addr + (r -
Y)`, and its column `c - X` is bit `7 - (c - X)`. -/
def SpriteCovers (s : State) (addr Y X n r c : Nat) : Prop :=
  Y ≤ r ∧ r < Y + n ∧ X ≤ c ∧ c < X + 8 ∧ (s.memRead (addr + (r - Y))).getLsbD (7 - (c - X)) = true

/-! ### States that differ only in address bits above 11 -/

/-- The same state but for bits 15:12 of the registers that only hold addresses: `pc`, `I` and the
stack entries (10_state.md R14, R17). The fields that stand for the inputs are equal, so the inputs are
the same in both (log 32). -/
def SameButHighAddressBits (s t : State) : Prop :=
  t.pc.toNat % 4096 = s.pc.toNat % 4096 ∧ t.i.toNat % 4096 = s.i.toNat % 4096 ∧
    (∀ k : Fin 16, t.stack[k.val].toNat % 4096 = s.stack[k.val].toNat % 4096) ∧
    t = { s with pc := t.pc, i := t.i, stack := t.stack }

end Sys2Proof.Safety
end

