-- ==== Sys2Proof/Certificates/Slice0/Obligations.lean ====
section
/-! DEFINITION. The statements for the provers. "D<n>" is a decision of 92_eei_decisions.md, "log
<n>" is notes/assumptions/<n>.md. -/

open Sys2Proof Sys2Proof.Machine Sys2Proof.Safety

/-! ### Reset -/

/-- The address map after a reset with any font and any image (20_memory.md R47). -/
def Obligations.ResetMemoryMap : Prop :=
  ∀ (font : Font) (image : Image),
    (∀ a : Nat, ∀ h : a < 80, (State.resetWith font image).memRead a = font[a]) ∧
    (∀ a : Nat, 0x050 ≤ a → a < 0x200 → (State.resetWith font image).memRead a = 0#8) ∧
    (∀ k : Nat, ∀ h : k < image.val.length,
      (State.resetWith font image).memRead (0x200 + k) = image.val[k]) ∧
    (∀ a : Nat, 0x200 + image.val.length ≤ a → a < 0x1000 →
      (State.resetWith font image).memRead a = 0#8) ∧
    (State.resetWith font image).pc = 0x0200#16

/-- The other values after reset. PC, SP, I, DT and ST are the source's; V, Stack, FB, cyc, key,
halted, cause and closed are the spec's decision D20 (log 19); the model's own fields are log 20. -/
def Obligations.ResetRegisterValues : Prop :=
  ∀ (font : Font) (image : Image),
    (State.resetWith font image).pc = 0x0200#16 ∧ (State.resetWith font image).sp.val = 0 ∧
    (State.resetWith font image).i = 0#16 ∧ (State.resetWith font image).dt = 0#8 ∧
    (State.resetWith font image).st = 0#8 ∧
    (∀ r : Reg, (State.resetWith font image).getV r = 0#8) ∧
    (∀ k : Fin 16, (State.resetWith font image).stack[k.val] = 0#16) ∧
    (∀ r c : Nat, (State.resetWith font image).fb.cell r c = false) ∧
    (State.resetWith font image).cyc = 0 ∧ (State.resetWith font image).key = none ∧
    (State.resetWith font image).halted = false ∧ (State.resetWith font image).cause.code = 0#3 ∧
    (State.resetWith font image).closed = false ∧ (State.resetWith font image).soundOut = false ∧
    (State.resetWith font image).fbOut = none

/-- `State.reset` is the reset with the default font and the empty image, whose memory lists nothing
(log 21, 22). -/
def Obligations.ResetIsTheDefaultReset : Prop :=
  State.reset = State.resetWith Config.font Config.emptyImage

/-- The invariant holds after every reset, for every `CYCLES_PER_FRAME` of at least 1, and of
`State.reset` at the default of 12 (the spec's decision D31; log 23). -/
def Obligations.ResetMeetsTheInvariant : Prop :=
  (∀ (font : Font) (image : Image) (cpf : Nat), 1 ≤ cpf → Inv cpf (State.resetWith font image)) ∧
    Inv Config.cyclesPerFrame State.reset

/-! ### Encoding -/

/-- Decoding the bytes of an encoded well-formed instruction gives it back, with every operand at
every value. -/
def Obligations.DecodeInvertsEncode : Prop :=
  ∀ i : Instr, i.wf = true → decodeBytes (wordBytes (encode i)) = .ok (i, [])

/-- What a word decodes to is well formed and encodes to that word: no bit of it is dropped. -/
def Obligations.EncodeInvertsDecode : Prop :=
  ∀ (w : Word) (i : Instr), decodeWord w = .ok i → i.wf = true ∧ encode i = w

/-- The decoder agrees with the opcode map: a decoded word lies in its instruction's row, a word in
a row is decoded, and SYS is what its row's words are but for the three FIXED ones (the opcode values
are the spec's decision D1, D2, D3; log 1, 2). -/
def Obligations.DecoderAgreesWithTheOpcodeMap : Prop :=
  ∀ w : Word,
    (∀ i : Instr, decodeWord w = .ok i → w &&& i.row.mask = i.row.pattern) ∧
    (∀ i : Instr, w &&& i.row.mask = i.row.pattern → ∃ j : Instr, decodeWord w = .ok j ∧
      (j.row = i.row ∨ ((∃ nnn, i = .sys nnn) ∧ (j = .endSentinel ∨ j = .cls ∨ j = .ret))))

/-- The Illegal words are the listed ones, and every other word is an instruction (30_encoding.md
R67; the opcode values are the spec's decision D1, D3, log 1). -/
def Obligations.IllegalWordsAreTheListedOnes : Prop :=
  ∀ w : Word,
    ((fieldOp w = 0x5#4 ∧ fieldN w ≠ 0x0#4) ∨
      (fieldOp w = 0x8#4 ∧ fieldN w ∈ [0x8#4, 0x9#4, 0xA#4, 0xB#4, 0xC#4, 0xD#4, 0xF#4]) ∨
      (fieldOp w = 0x9#4 ∧ fieldN w ≠ 0x0#4) ∨
      (fieldOp w = 0xE#4 ∧ fieldKK w ∉ [0x9E#8, 0xA1#8]) ∨
      (fieldOp w = 0xF#4 ∧ fieldKK w ∉
        [0x07#8, 0x0A#8, 0x15#8, 0x18#8, 0x1E#8, 0x29#8, 0x33#8, 0x55#8, 0x65#8]) →
      decodeWord w = .error (.illegal w)) ∧
    (decodeWord w = .error (.illegal w) →
      (fieldOp w = 0x5#4 ∧ fieldN w ≠ 0x0#4) ∨
      (fieldOp w = 0x8#4 ∧ fieldN w ∈ [0x8#4, 0x9#4, 0xA#4, 0xB#4, 0xC#4, 0xD#4, 0xF#4]) ∨
      (fieldOp w = 0x9#4 ∧ fieldN w ≠ 0x0#4) ∨
      (fieldOp w = 0xE#4 ∧ fieldKK w ∉ [0x9E#8, 0xA1#8]) ∨
      (fieldOp w = 0xF#4 ∧ fieldKK w ∉
        [0x07#8, 0x0A#8, 0x15#8, 0x18#8, 0x1E#8, 0x29#8, 0x33#8, 0x55#8, 0x65#8])) ∧
    (decodeWord w = .error (.illegal w) ∨ ∃ i : Instr, decodeWord w = .ok i)

/-- No word lies in two rows of the opcode map, but for the FIXED rows inside SYS's (the opcode values
are the spec's decision D1, D2, D3; log 1, 2). -/
def Obligations.OpcodeRowsOverlapOnlyAtSys : Prop :=
  ∀ (i j : Instr) (w : Word), w &&& i.row.mask = i.row.pattern → w &&& j.row.mask = j.row.pattern →
    i.row = j.row ∨
      ((∃ nnn, i = .sys nnn) ∧ (j = .endSentinel ∨ j = .cls ∨ j = .ret)) ∨
      ((∃ nnn, j = .sys nnn) ∧ (i = .endSentinel ∨ i = .cls ∨ i = .ret))

/-- Some words and what they stand for (95_test_vectors.md section 2.1). These are choices and no
words of the source: the opcode values are the spec's decision D1, PRESUMED (log 1); 0x01E0 is SYS and
not CLS by the whole-word match of group 0, D2 (log 2); 0x5121 is Illegal by D3 (log 1); that `y` of
SHR is kept in the term is the model's (log 3). -/
def Obligations.WordsDecodeToTheirInstruction : Prop :=
  decodeWord 0x0000#16 = .ok .endSentinel ∧ decodeWord 0x00EE#16 = .ok .ret ∧
  decodeWord 0x01E0#16 = .ok (.sys 0x1E0#12) ∧ decodeWord 0x1ABC#16 = .ok (.jp 0xABC#12) ∧
  decodeWord 0x3A7F#16 = .ok (.seImm 0xA 0x7F#8) ∧ decodeWord 0x8AB6#16 = .ok (.shr 0xA 0xB) ∧
  decodeWord 0xD125#16 = .ok (.drw 1 2 5#4) ∧ decodeWord 0xF265#16 = .ok (.ldVxMem 2) ∧
  decodeWord 0x5121#16 = .error (.illegal 0x5121#16)

/-! ### The step -/

/-- A step of a running core whose bytes at the program counter decode to `i` is `exec i`, which
answers a next state, then the count of the cycle unless the instruction halted
(40_execution_cycle.md R81, R95). The last clause, that `step` runs with 12 cycles per frame, is a
choice: `CYCLES_PER_FRAME` is a parameter that the spec leaves open, with that default (its decision
D31; log 23, DESIGN CHOICE). -/
def Obligations.StepRunsTheDecodedInstruction : Prop :=
  ∀ (cpf : Nat) (s : State) (i : Instr) (rest : List Byte), Running s →
    decodeBytes s.fetchBytes = .ok (i, rest) →
    (∃ t, exec i s = .next t ∧
      stepAt cpf s = .next (if t.halted then t else t.countCycle cpf)) ∧
    step s = stepAt 12 s

/-- The fetched word is `Mem[pc & 0xFFF]` in the high half and `Mem[(pc+1) & 0xFFF]` in the low half
(40_execution_cycle.md R82), for every `pc`, odd or above 0xFFF too. -/
def Obligations.FetchIsBigEndianAndMasked : Prop :=
  ∀ s : State,
    s.fetchWord.extractLsb' 8 8 = s.mem.get (s.pc &&& 0xFFF#16).toNat ∧
    s.fetchWord.extractLsb' 0 8 = s.mem.get ((s.pc + 1#16) &&& 0xFFF#16).toNat ∧
    decodeBytes s.fetchBytes = (decodeWord s.fetchWord).map (fun i => (i, []))

/-- Inside a tick a cycle adds the count of the cycle to the instruction's own effect and nothing
else (40_execution_cycle.md R81). -/
def Obligations.CycleInsideATick : Prop :=
  ∀ (cpf : Nat) (s t : State) (i : Instr), Running s → decodeWord s.fetchWord = .ok i →
    exec i s = .next t → t.halted = false → s.cyc + 1 ≠ cpf →
    stepAt cpf s = .next { t with cyc := s.cyc + 1 }

/-- The cycle that fills a tick is followed by the frame boundary (40_execution_cycle.md R91 to R94):
the timers count down but not below 0, the framebuffer is presented, the key and the close request
are sampled, the count starts again. When the inputs are sampled is the spec's decision D16, D25; the
queue of polls and the free values after it are the model's (log 18). -/
def Obligations.FrameBoundaryEffects : Prop :=
  ∀ (cpf : Nat) (s t : State) (i : Instr), Running s → decodeWord s.fetchWord = .ok i →
    exec i s = .next t → t.halted = false → s.cyc + 1 = cpf →
    ∃ u, stepAt cpf s = .next u ∧
      u.dt.toNat = t.dt.toNat - 1 ∧ u.st.toNat = t.st.toNat - 1 ∧
      u.fbOut = some t.fb ∧ u.cyc = 0 ∧ u.frames = s.frames + 1 ∧ u.polls = s.polls.tail ∧
      (∀ p ps, s.polls = p :: ps → u.key = p.key ∧ u.closed = p.close) ∧
      (s.polls = [] → u.key = Config.keyIn s.frames ∧ u.closed = Config.closeReq s.frames) ∧
      u = { t with dt := u.dt, st := u.st, fbOut := u.fbOut, cyc := u.cyc, frames := u.frames,
                   polls := u.polls, key := u.key, closed := u.closed }

/-- An Illegal word halts the core with IllegalOpcode, code 1, and nothing else changes: the program
counter stays, the cycle is not counted, no frame boundary follows (the spec's decision D4, D5, D24;
log 4, 5). -/
def Obligations.IllegalWordHaltsTheCore : Prop :=
  ∀ (cpf : Nat) (s : State), Running s →
    decodeWord s.fetchWord = .error (.illegal s.fetchWord) →
    ∃ t, stepAt cpf s = .next t ∧ OnlyHalt .illegalOpcode s t ∧ t.cause.code = 1#3

/-- END and SYS always halt, with EndSentinel (code 3) and UnsupportedSyscall (code 2), and nothing
else changes (40_execution_cycle.md R96, R97). -/
def Obligations.EndAndSysHalt : Prop :=
  ∀ (s : State) (nnn : Addr),
    (∃ t, exec .endSentinel s = .next t ∧ OnlyHalt .endSentinel s t ∧ t.cause.code = 3#3) ∧
    (∃ t, exec (.sys nnn) s = .next t ∧ OnlyHalt .unsupportedSyscall s t ∧ t.cause.code = 2#3)

/-- A halted core and a closed core have no step (60_exceptions.md R197, R199). -/
def Obligations.EndedCoreHasNoStep : Prop :=
  ∀ (cpf : Nat) (s : State), s.halted = true ∨ s.closed = true → ∀ t, stepAt cpf s ≠ .next t

/-- A running core always has a step: no fetch, decode or instruction faults, whatever the state
(20_memory.md R41, R44; 30_encoding.md R60; 60_exceptions.md R207). -/
def Obligations.RunningCoreAlwaysSteps : Prop :=
  ∀ (cpf : Nat) (s : State), Running s → ∃ t, stepAt cpf s = .next t

/-- A step that halts changes nothing but `halted` and `cause` (60_exceptions.md R196, the spec's
decision D4; log 5). -/
def Obligations.HaltIsPrecise : Prop :=
  ∀ (cpf : Nat) (s t : State), stepAt cpf s = .next t → t.halted = true →
    OnlyHalt t.cause s t ∧ t.cause.code ≠ 0#3

/-- A step halts exactly on an Illegal word, END, SYS, CALL with a full stack and RET with an empty
one, each with its own cause (60_exceptions.md R190; the reaction is the spec's decision D4, D6; log
4, 5, 8). -/
def Obligations.HaltCausesAreExact : Prop :=
  ∀ (cpf : Nat) (s t : State), stepAt cpf s = .next t →
    ((∃ e, decodeWord s.fetchWord = .error e) → t.halted = true ∧ t.cause = .illegalOpcode) ∧
    ((∃ nnn, decodeWord s.fetchWord = .ok (.sys nnn)) →
      t.halted = true ∧ t.cause = .unsupportedSyscall) ∧
    (decodeWord s.fetchWord = .ok .endSentinel → t.halted = true ∧ t.cause = .endSentinel) ∧
    ((∃ nnn, decodeWord s.fetchWord = .ok (.call nnn)) ∧ s.sp.val = 16 →
      t.halted = true ∧ t.cause = .stackOverflow) ∧
    (decodeWord s.fetchWord = .ok .ret ∧ s.sp.val = 0 →
      t.halted = true ∧ t.cause = .stackUnderflow) ∧
    (t.halted = true →
      (∃ e, decodeWord s.fetchWord = .error e) ∨
      (∃ nnn, decodeWord s.fetchWord = .ok (.sys nnn)) ∨
      decodeWord s.fetchWord = .ok .endSentinel ∨
      ((∃ nnn, decodeWord s.fetchWord = .ok (.call nnn)) ∧ s.sp.val = 16) ∨
      (decodeWord s.fetchWord = .ok .ret ∧ s.sp.val = 0))

/-- Every step keeps the invariant: canonical memory, a cause exactly when halted, `cyc` below
`CYCLES_PER_FRAME`, never halted and closed at once, closed only at a frame boundary, a frame
presented exactly when a boundary has passed. -/
def Obligations.StepKeepsTheInvariant : Prop :=
  ∀ (cpf : Nat) (s t : State), Inv cpf s → stepAt cpf s = .next t → Inv cpf t

/-! ### Rules over all instructions -/

/-- Each piece of state outside the general registers and PC is written only by its own instructions
(10_state.md R17, R18, R19, R22, R23; 20_memory.md R42), and `cyc`, `key`, `closed`, the presented
frame and the polls by none (10_state.md R24, R25, R27). -/
def Obligations.StateWrittenOnlyByItsInstructions : Prop :=
  ∀ (i : Instr) (s t : State), exec i s = .next t →
    (t.mem ≠ s.mem → (∃ x, i = .ldBVx x) ∨ ∃ x, i = .ldMemVx x) ∧
    (t.i ≠ s.i → (∃ nnn, i = .ldI nnn) ∨ (∃ x, i = .addIVx x) ∨ ∃ x, i = .ldFVx x) ∧
    (t.stack ≠ s.stack → ∃ nnn, i = .call nnn) ∧
    (t.sp ≠ s.sp → (∃ nnn, i = .call nnn) ∨ i = .ret) ∧
    (t.dt ≠ s.dt → ∃ x, i = .ldDTVx x) ∧
    (t.st ≠ s.st → ∃ x, i = .ldSTVx x) ∧
    (t.fb ≠ s.fb → i = .cls ∨ ∃ x y n, i = .drw x y n) ∧
    (t.rndIn ≠ s.rndIn ∨ t.rndCount ≠ s.rndCount → ∃ x kk, i = .rnd x kk) ∧
    (t.halted ≠ s.halted ∨ t.cause ≠ s.cause →
      i = .endSentinel ∨ (∃ nnn, i = .sys nnn) ∨ (∃ nnn, i = .call nnn) ∨ i = .ret) ∧
    t.cyc = s.cyc ∧ t.key = s.key ∧ t.closed = s.closed ∧ t.fbOut = s.fbOut ∧
    t.frames = s.frames ∧ t.polls = s.polls

/-- A register changes only under an instruction that the access summary lists as writing it
(10_state.md R12). -/
def Obligations.RegistersWrittenOnlyAsListed : Prop :=
  ∀ (i : Instr) (s t : State) (r : Reg), exec i s = .next t → t.getV r ≠ s.getV r →
    mayWriteReg i r = true

/-- An instruction that does not halt advances PC by 2 modulo 2^16, unless it is one of those listed
(10_state.md R14 (a)); a skip by 2 or 4, a waiting LD Vx,K by 0. -/
def Obligations.PcAdvancesByTwoUnlessListed : Prop :=
  ∀ (i : Instr) (s t : State), exec i s = .next t →
    (pcMove i = .two → t.pc = s.pc + 2#16) ∧
    (pcMove i = .skip → t.pc = s.pc + 2#16 ∨ t.pc = s.pc + 4#16) ∧
    (pcMove i = .wait → t.pc = if s.key = none then s.pc else s.pc + 2#16) ∧
    (pcMove i = .stay → t.pc = s.pc)

/-- VF after an instruction that writes it as a flag is exactly 0 or 1, whatever its operands are
(10_state.md R15; for the destination VF the spec's decision D8, log 9). -/
def Obligations.FlagsAreZeroOrOne : Prop :=
  ∀ (i : Instr) (s t : State), setsFlag i = true → exec i s = .next t →
    t.getV 15 = 0#8 ∨ t.getV 15 = 1#8

/-- Bits 15:12 of PC, I and the stack entries are unobservable: two states that differ in them alone
step to states that differ in them alone, or stop alike (10_state.md R14 (c), R17, marked derived
there; the widths are the spec's decision D23, log 24). The two states hold the same input fields, so
their free inputs are the same ones (the model's choice; log 32). -/
def Obligations.OnlyLowAddressBitsMatter : Prop :=
  ∀ (cpf : Nat) (s s' : State), SameButHighAddressBits s s' →
    (∀ t, stepAt cpf s = .next t → ∃ t', stepAt cpf s' = .next t' ∧ SameButHighAddressBits t t') ∧
    (∀ r, stepAt cpf s = .fault r → stepAt cpf s' = .fault r) ∧
    (∀ r, stepAt cpf s = .refused r → stepAt cpf s' = .refused r)

/-- The key latch, the presented frame and `closed` change at a frame boundary only, and what is then
presented is the framebuffer (10_state.md R25, R27; 60_exceptions.md R193; the sampling is the spec's
decision D16, D25, log 16, 27). -/
def Obligations.InputsAndFrameChangeOnlyAtABoundary : Prop :=
  ∀ (cpf : Nat) (s t : State), stepAt cpf s = .next t →
    (s.cyc + 1 ≠ cpf → t.key = s.key ∧ t.closed = s.closed ∧ t.fbOut = s.fbOut ∧
      t.frames = s.frames ∧ t.polls = s.polls) ∧
    (t.fbOut ≠ s.fbOut → s.cyc + 1 = cpf ∧ t.fbOut = some t.fb)

/-- A timer that the step's instruction does not write keeps its value inside a tick and counts down
by 1, never below 0, at a frame boundary (40_execution_cycle.md R91). -/
def Obligations.TimersCountDownAtBoundariesOnly : Prop :=
  ∀ (cpf : Nat) (s t : State), stepAt cpf s = .next t → t.halted = false →
    ((∀ x, decodeWord s.fetchWord ≠ .ok (.ldDTVx x)) →
      t.dt.toNat = if s.cyc + 1 = cpf then s.dt.toNat - 1 else s.dt.toNat) ∧
    ((∀ x, decodeWord s.fetchWord ≠ .ok (.ldSTVx x)) →
      t.st.toNat = if s.cyc + 1 = cpf then s.st.toNat - 1 else s.st.toNat)

/-! ### Control transfer -/

/-- The four compare skips (41_control_transfer.md R104 to R107). -/
def Obligations.SkipsCompareAndAdvance : Prop :=
  ∀ (s : State) (x y : Reg) (kk : Byte),
    (∃ t, exec (.seImm x kk) s = .next t ∧ OnlyPc s t ∧
      t.pc = if s.getV x = kk then s.pc + 4#16 else s.pc + 2#16) ∧
    (∃ t, exec (.sneImm x kk) s = .next t ∧ OnlyPc s t ∧
      t.pc = if s.getV x = kk then s.pc + 2#16 else s.pc + 4#16) ∧
    (∃ t, exec (.seReg x y) s = .next t ∧ OnlyPc s t ∧
      t.pc = if s.getV x = s.getV y then s.pc + 4#16 else s.pc + 2#16) ∧
    (∃ t, exec (.sneReg x y) s = .next t ∧ OnlyPc s t ∧
      t.pc = if s.getV x = s.getV y then s.pc + 2#16 else s.pc + 4#16)

/-- JP lands exactly on `nnn` (41_control_transfer.md R102). -/
def Obligations.JumpLandsOnItsTarget : Prop :=
  ∀ (s : State) (nnn : Addr), ∃ t, exec (.jp nnn) s = .next t ∧ OnlyPc s t ∧
    t.pc.toNat = nnn.toNat

/-- JP V0 lands on `nnn + V0`, which is not masked when it is written (the spec's decision D23, log
24). -/
def Obligations.JumpWithOffsetAddsV0 : Prop :=
  ∀ (s : State) (nnn : Addr), ∃ t, exec (.jpV0 nnn) s = .next t ∧ OnlyPc s t ∧
    t.pc.toNat = nnn.toNat + (s.getV 0).toNat

/-- CALL on a stack that is not full pushes its own address and jumps (where it is pushed is the
spec's decision D7, what is pushed D34; log 8). -/
def Obligations.CallPushesItsOwnAddress : Prop :=
  ∀ (s : State) (nnn : Addr), s.sp.val < 16 → ∃ t, exec (.call nnn) s = .next t ∧ OnlyStack s t ∧
    t.pc.toNat = nnn.toNat ∧ t.sp.val = s.sp.val + 1 ∧
    ∀ k : Fin 16, t.stack[k.val] = if k.val = s.sp.val then s.pc else s.stack[k.val]

/-- CALL on a full stack halts with StackOverflow, code 4, with nothing written (the spec's decision
D6; log 8). -/
def Obligations.CallOnAFullStackHalts : Prop :=
  ∀ (s : State) (nnn : Addr), s.sp.val = 16 → ∃ t, exec (.call nnn) s = .next t ∧
    OnlyHalt .stackOverflow s t ∧ t.cause.code = 4#3

/-- RET on a stack that is not empty pops the top entry and goes 2 past it; no entry is erased (the
spec's decision D7, D34; log 8). -/
def Obligations.ReturnPopsTheCallAddress : Prop :=
  ∀ (s : State) (k : Fin 16), s.sp.val = k.val + 1 → ∃ t, exec .ret s = .next t ∧ OnlyStack s t ∧
    t.pc = s.stack[k.val] + 2#16 ∧ t.sp.val = k.val ∧ t.stack = s.stack

/-- RET on an empty stack halts with StackUnderflow, code 5, with nothing written (the spec's decision
D6; log 8). -/
def Obligations.ReturnOnAnEmptyStackHalts : Prop :=
  ∀ s : State, s.sp.val = 0 → ∃ t, exec .ret s = .next t ∧
    OnlyHalt .stackUnderflow s t ∧ t.cause.code = 5#3

/-- A RET in any state with the stack that a CALL left lands on the instruction after that CALL, with
the stack pointer of before it and the older entries untouched (the spec's decision D34; log 8). -/
def Obligations.CallThenReturn : Prop :=
  ∀ (s t u : State) (nnn : Addr), s.sp.val < 16 → exec (.call nnn) s = .next t →
    u.sp = t.sp → u.stack = t.stack →
    ∃ r, exec .ret u = .next r ∧ r.pc = s.pc + 2#16 ∧ r.sp = s.sp ∧
      ∀ k : Fin 16, k.val < s.sp.val → r.stack[k.val] = s.stack[k.val]

/-! ### Registers and arithmetic -/

/-- LD Vx,kk; ADD Vx,kk modulo 256; LD Vx,Vy: no flag (42_alu.md R120 to R122). -/
def Obligations.LoadsAndImmediateAdd : Prop :=
  ∀ (s : State) (x y : Reg) (kk : Byte),
    (∃ t, exec (.ldImm x kk) s = .next t ∧ OnlyRegs [x] s t ∧ t.pc = s.pc + 2#16 ∧
      t.getV x = kk) ∧
    (∃ t, exec (.addImm x kk) s = .next t ∧ OnlyRegs [x] s t ∧ t.pc = s.pc + 2#16 ∧
      (t.getV x).toNat = ((s.getV x).toNat + kk.toNat) % 256) ∧
    (∃ t, exec (.ldReg x y) s = .next t ∧ OnlyRegs [x] s t ∧ t.pc = s.pc + 2#16 ∧
      t.getV x = s.getV y)

/-- OR, AND and XOR, bit by bit; VF is unchanged unless it is the destination (42_alu.md R123 to
R125). -/
def Obligations.LogicLeavesTheFlag : Prop :=
  ∀ (s : State) (x y : Reg),
    (∃ t, exec (.or x y) s = .next t ∧ OnlyRegs [x] s t ∧ t.pc = s.pc + 2#16 ∧
      ∀ k, (t.getV x).getLsbD k = ((s.getV x).getLsbD k || (s.getV y).getLsbD k)) ∧
    (∃ t, exec (.and x y) s = .next t ∧ OnlyRegs [x] s t ∧ t.pc = s.pc + 2#16 ∧
      ∀ k, (t.getV x).getLsbD k = ((s.getV x).getLsbD k && (s.getV y).getLsbD k)) ∧
    (∃ t, exec (.xor x y) s = .next t ∧ OnlyRegs [x] s t ∧ t.pc = s.pc + 2#16 ∧
      ∀ k, (t.getV x).getLsbD k = ((s.getV x).getLsbD k != (s.getV y).getLsbD k))

/-- ADD Vx,Vy: the sum modulo 256 and VF = 1 iff the sum exceeds 0xFF (42_alu.md). When the
destination is VF the flag remains and the sum is lost (the spec's decision D8; log 9). -/
def Obligations.AddSetsTheCarry : Prop :=
  ∀ (s : State) (x y : Reg), ∃ t, exec (.addReg x y) s = .next t ∧ OnlyRegs [x, 15] s t ∧
    t.pc = s.pc + 2#16 ∧
    (x ≠ 15 → (t.getV x).toNat = ((s.getV x).toNat + (s.getV y).toNat) % 256) ∧
    t.getV 15 = if 0xFF < (s.getV x).toNat + (s.getV y).toNat then 1#8 else 0#8

/-- SUB and SUBN: the wrapped difference and VF = 1 iff the minuend is strictly the greater, so 0 for
equal operands (90_conflicts.md C2; log 10); the flag remains when the destination is VF (D8; log
9). -/
def Obligations.SubtractSetsTheFlag : Prop :=
  ∀ (s : State) (x y : Reg),
    (∃ t, exec (.sub x y) s = .next t ∧ OnlyRegs [x, 15] s t ∧ t.pc = s.pc + 2#16 ∧
      (x ≠ 15 → ((t.getV x).toNat : Int) = ((s.getV x).toNat - (s.getV y).toNat : Int) % 256) ∧
      t.getV 15 = if (s.getV y).toNat < (s.getV x).toNat then 1#8 else 0#8) ∧
    (∃ t, exec (.subn x y) s = .next t ∧ OnlyRegs [x, 15] s t ∧ t.pc = s.pc + 2#16 ∧
      (x ≠ 15 → ((t.getV x).toNat : Int) = ((s.getV y).toNat - (s.getV x).toNat : Int) % 256) ∧
      t.getV 15 = if (s.getV x).toNat < (s.getV y).toNat then 1#8 else 0#8)

/-- SHR and SHL by one bit, VF the bit shifted out, the field `y` ignored; the flag remains when the
destination is VF (D8; log 9). -/
def Obligations.ShiftSetsTheFlag : Prop :=
  ∀ (s : State) (x y : Reg),
    (∃ t, exec (.shr x y) s = .next t ∧ OnlyRegs [x, 15] s t ∧ t.pc = s.pc + 2#16 ∧
      (x ≠ 15 → (t.getV x).toNat = (s.getV x).toNat / 2) ∧
      (t.getV 15).toNat = (s.getV x).toNat % 2) ∧
    (∃ t, exec (.shl x y) s = .next t ∧ OnlyRegs [x, 15] s t ∧ t.pc = s.pc + 2#16 ∧
      (x ≠ 15 → (t.getV x).toNat = (s.getV x).toNat * 2 % 256) ∧
      (t.getV 15).toNat = (s.getV x).toNat / 128)

/-- RND masks the drawn byte, whatever it is, and consumes it also when `kk` is 0; a byte that is not
known is the free value of its number (the spec's decision D19; log 18). -/
def Obligations.RandomMasksTheDraw : Prop :=
  ∀ (s : State) (x : Reg) (kk : Byte), ∃ t, exec (.rnd x kk) s = .next t ∧
    KeepsRegsBut [x] s t ∧ KeepsAllButRegsAndDraws s t ∧ t.pc = s.pc + 2#16 ∧
    (∀ r q, s.rndIn = r :: q → t.getV x = r &&& kk ∧ t.rndIn = q) ∧
    (s.rndIn = [] → t.getV x = Config.rndIn s.rndCount &&& kk ∧ t.rndIn = []) ∧
    t.rndCount = s.rndCount + 1 ∧ t.getV x &&& ~~~kk = 0#8

/-! ### Index and memory -/

/-- LD I,nnn (43_index_memory.md R140). -/
def Obligations.IndexLoad : Prop :=
  ∀ (s : State) (nnn : Addr), ∃ t, exec (.ldI nnn) s = .next t ∧ OnlyIndex s t ∧
    t.pc = s.pc + 2#16 ∧ t.i.toNat = nnn.toNat

/-- ADD I,Vx modulo 2^16 with no flag and no 12-bit mask (the spec's decision D23, log 24); LD F,Vx is
five times all 8 bits of the register (D11, log 12). -/
def Obligations.IndexArithmetic : Prop :=
  ∀ (s : State) (x : Reg),
    (∃ t, exec (.addIVx x) s = .next t ∧ OnlyIndex s t ∧ t.pc = s.pc + 2#16 ∧
      t.i.toNat = (s.i.toNat + (s.getV x).toNat) % 65536) ∧
    (∃ t, exec (.ldFVx x) s = .next t ∧ OnlyIndex s t ∧ t.pc = s.pc + 2#16 ∧
      t.i.toNat = (s.getV x).toNat * 5)

/-- LD B,Vx stores the hundreds, tens and ones digits at I, I+1, I+2 (43_index_memory.md R146). -/
def Obligations.BcdStoresTheDigits : Prop :=
  ∀ (s : State) (x : Reg), ∃ t, exec (.ldBVx x) s = .next t ∧ OnlyMemory s.blockBase 3 s t ∧
    t.pc = s.pc + 2#16 ∧
    (t.memRead s.blockBase).toNat = (s.getV x).toNat / 100 ∧
    (t.memRead (s.blockBase + 1)).toNat = (s.getV x).toNat / 10 % 10 ∧
    (t.memRead (s.blockBase + 2)).toNat = (s.getV x).toNat % 10

/-- LD [I],Vx stores V0..Vx at I, I+1, ... and changes no other byte (43_index_memory.md R148). -/
def Obligations.BlockStoreWritesTheRegisters : Prop :=
  ∀ (s : State) (x : Reg), ∃ t, exec (.ldMemVx x) s = .next t ∧
    OnlyMemory s.blockBase (x.val + 1) s t ∧ t.pc = s.pc + 2#16 ∧
    ∀ k : Reg, k.val ≤ x.val → t.memRead (s.blockBase + k.val) = s.getV k

/-- LD Vx,[I] loads V0..Vx from I, I+1, ... and changes no other register (that I is unchanged is the
spec's decision D10, log 11). -/
def Obligations.BlockLoadReadsTheBytes : Prop :=
  ∀ (s : State) (x : Reg), ∃ t, exec (.ldVxMem x) s = .next t ∧ KeepsAllButRegs s t ∧
    t.pc = s.pc + 2#16 ∧
    ∀ r : Reg, t.getV r = if r.val ≤ x.val then s.memRead (s.blockBase + r.val) else s.getV r

/-- A block store followed by a block load with the same I and the same memory gives the registers
back, for every x, I and contents, whatever happened to the registers in between (43_index_memory.md,
marked derived there; D10, log 11). -/
def Obligations.BlockRoundTrip : Prop :=
  ∀ (s t u : State) (x : Reg), exec (.ldMemVx x) s = .next t → u.i = t.i →
    (∀ a, u.memRead a = t.memRead a) →
    ∃ r, exec (.ldVxMem x) u = .next r ∧ ∀ k : Reg, k.val ≤ x.val → r.getV k = s.getV k

/-- Two bytes that a block store put where the next fetch reads are that fetch's word: code can be
written (the spec's decision D30; log 25). -/
def Obligations.StoreIsSeenByTheNextFetch : Prop :=
  ∀ (s t : State) (x k k' : Reg), exec (.ldMemVx x) s = .next t → k'.val = k.val + 1 →
    k'.val ≤ x.val → t.pc.toNat % 4096 = (s.blockBase + k.val) % 4096 →
    t.fetchWord = s.getV k ++ s.getV k'

/-- Equal memories are equal data: two canonical lists that read alike everywhere are one. -/
def Obligations.MemoryFormIsUnique : Prop :=
  ∀ m m' : Memory, m.wf = true → m'.wf = true → (∀ a, m.read a = m'.read a) → m = m'

/-! ### Display -/

/-- CLS clears every cell and writes nothing else (44_display.md R160). -/
def Obligations.ClearScreenClearsEveryCell : Prop :=
  ∀ s : State, ∃ t, exec .cls s = .next t ∧ OnlyDisplay [] s t ∧ t.pc = s.pc + 2#16 ∧
    ∀ r c : Nat, t.fb.cell r c = false

/-- DRW flips exactly the grid cells under a set sprite bit, clipped and without wrap-around, and VF
is 1 iff one of them was set before (44_display.md; bit 7 leftmost D13 log 14, coordinates D12 log 13,
n = 0 D14 log 15, VF as a coordinate D15 log 9). -/
def Obligations.DrawFlipsTheUnclippedCells : Prop :=
  ∀ (s : State) (x y : Reg) (n : Nibble),
    ∃ t, exec (.drw x y n) s = .next t ∧ OnlyDisplay [15] s t ∧ t.pc = s.pc + 2#16 ∧
      (∀ r c : Nat, r < 32 → c < 64 →
        (SpriteCovers s s.blockBase (s.getV y).toNat (s.getV x).toNat n.toNat r c →
          t.fb.cell r c = !s.fb.cell r c) ∧
        (¬SpriteCovers s s.blockBase (s.getV y).toNat (s.getV x).toNat n.toNat r c →
          t.fb.cell r c = s.fb.cell r c)) ∧
      ((∃ r c : Nat, r < 32 ∧ c < 64 ∧ s.fb.cell r c = true ∧
          SpriteCovers s s.blockBase (s.getV y).toNat (s.getV x).toNat n.toNat r c) →
        t.getV 15 = 1#8) ∧
      ((¬∃ r c : Nat, r < 32 ∧ c < 64 ∧ s.fb.cell r c = true ∧
          SpriteCovers s s.blockBase (s.getV y).toNat (s.getV x).toNat n.toNat r c) →
        t.getV 15 = 0#8)

/-- Drawing a sprite twice at the same position restores the framebuffer, and the second draw
collides iff some unclipped set sprite bit was over a clear cell before the first (44_display.md R165
(e), marked derived there). -/
def Obligations.DrawTwiceRestoresTheFramebuffer : Prop :=
  ∀ (s t : State) (x y : Reg) (n : Nibble), exec (.drw x y n) s = .next t →
    t.getV x = s.getV x → t.getV y = s.getV y →
    ∃ u, exec (.drw x y n) t = .next u ∧ (∀ r c : Nat, u.fb.cell r c = s.fb.cell r c) ∧
      (u.getV 15 = 1#8 ↔ ∃ r c : Nat, r < 32 ∧ c < 64 ∧ s.fb.cell r c = false ∧
        SpriteCovers s s.blockBase (s.getV y).toNat (s.getV x).toNat n.toNat r c)

/-! ### Timers and keys -/

/-- LD Vx,DT never waits; LD ST,Vx drives the sound level (45_timers_keys.md R170, R172, R176). -/
def Obligations.TimerReadAndSoundTimerWrite : Prop :=
  ∀ (s : State) (x : Reg),
    (∃ t, exec (.ldVxDT x) s = .next t ∧ OnlyRegs [x] s t ∧ t.pc = s.pc + 2#16 ∧
      t.getV x = s.dt) ∧
    (∃ t, exec (.ldSTVx x) s = .next t ∧ OnlyTimers s t ∧ t.pc = s.pc + 2#16 ∧
      t.st = s.getV x ∧ t.dt = s.dt ∧ (t.soundOut = true ↔ s.getV x ≠ 0#8))

/-- LD DT,Vx, and that a write in the last cycle of a tick is counted down at once by the boundary
(45_timers_keys.md R171; the last is the spec's decision D36, log 27). -/
def Obligations.DelayTimerWriteAndTheLastCycle : Prop :=
  ∀ (s : State) (x : Reg),
    (∃ t, exec (.ldDTVx x) s = .next t ∧ OnlyTimers s t ∧ t.pc = s.pc + 2#16 ∧
      t.dt = s.getV x ∧ t.st = s.st) ∧
    (∀ cpf : Nat, Running s → decodeWord s.fetchWord = .ok (.ldDTVx x) → s.cyc + 1 = cpf →
      ∃ u, stepAt cpf s = .next u ∧ u.dt.toNat = (s.getV x).toNat - 1)

/-- SKP skips iff a key of the value of all 8 bits of Vx is latched, SKNP iff not; NOKEY is equal to
no byte (the spec's decision D17; log 16). -/
def Obligations.KeySkips : Prop :=
  ∀ (s : State) (x : Reg),
    (∃ t, exec (.skp x) s = .next t ∧ OnlyPc s t ∧
      (∀ k, s.key = some k → t.pc =
        if k.toNat = (s.getV x).toNat then s.pc + 4#16 else s.pc + 2#16) ∧
      (s.key = none → t.pc = s.pc + 2#16)) ∧
    (∃ t, exec (.sknp x) s = .next t ∧ OnlyPc s t ∧
      (∀ k, s.key = some k → t.pc =
        if k.toNat = (s.getV x).toNat then s.pc + 2#16 else s.pc + 4#16) ∧
      (s.key = none → t.pc = s.pc + 4#16))

/-- LD Vx,K stores a latched key and goes on; while none is latched it changes nothing and stays (how
it polls is the spec's decision D18; log 17). -/
def Obligations.WaitForKeyStoresTheKey : Prop :=
  ∀ (s : State) (x : Reg),
    (∀ k, s.key = some k → ∃ t, exec (.ldVxK x) s = .next t ∧ OnlyRegs [x] s t ∧
      t.pc = s.pc + 2#16 ∧ (t.getV x).toNat = k.toNat) ∧
    (s.key = none → exec (.ldVxK x) s = .next s)

/-- A waiting cycle is a full cycle and changes nothing but `cyc` and what a frame boundary changes
(45_timers_keys.md R179 (a), (c); the spec's decision D18, log 17). -/
def Obligations.WaitingCycleOnlyCounts : Prop :=
  ∀ (cpf : Nat) (s : State) (x : Reg), Running s → decodeWord s.fetchWord = .ok (.ldVxK x) →
    s.key = none → stepAt cpf s = .next (s.countCycle cpf)
end

