-- ==== Sys2Proof/Laws/Display.lean ====
section
/-! SUPPORT. The laws of the framebuffer and of the sprite draw: what each cell holds afterwards and
when a collision is reported. -/

namespace Sys2Proof.Machine

@[simp] theorem Framebuffer.cell_blank (r c : Nat) : Framebuffer.blank.cell r c = false := by
  unfold Framebuffer.cell Framebuffer.blank
  split
  · simp
  · rfl

theorem Framebuffer.cell_outside (fb : Framebuffer) {r c : Nat} (h : ¬(r < 32 ∧ c < 64)) :
    fb.cell r c = false := by
  unfold Framebuffer.cell; rw [dif_neg h]

/-- A cell read after a cell write. -/
theorem Framebuffer.cell_setCell (fb : Framebuffer) (r c r' c' : Nat) (b : Bool)
    (h : r < 32 ∧ c < 64) :
    (fb.setCell r c b).cell r' c' = if r' = r ∧ c' = c then b else fb.cell r' c' := by
  unfold Framebuffer.setCell
  rw [dif_pos h]
  unfold Framebuffer.cell
  by_cases h' : r' < 32 ∧ c' < 64
  · simp only [dif_pos h']
    by_cases hr : r = r'
    · subst hr
      by_cases hc : c = c'
      · subst hc; simp
      · have : ¬(c' = c) := fun e => hc e.symm
        simp [this, hc]
    · have : ¬(r' = r) := fun e => hr e.symm
      simp [this, hr]
  · simp only [dif_neg h']
    rw [if_neg]
    rintro ⟨rfl, rfl⟩
    exact h' h

/-- The framebuffer is determined by its cells. -/
theorem Framebuffer.ext_cell {f g : Framebuffer} (h : ∀ r c, f.cell r c = g.cell r c) : f = g := by
  apply Vector.ext
  intro r hr
  apply Vector.ext
  intro c hc
  have := h r c
  simpa only [Framebuffer.cell, dif_pos (And.intro hr hc)] using this

/-! ### One cell of a draw -/

theorem Drawing.plot_cell (d : Drawing) (cy cx r c : Nat) (bit : Bool) :
    (d.plot cy cx bit).fb.cell r c =
      if r = cy ∧ c = cx ∧ r < 32 ∧ c < 64 then d.fb.cell r c ^^ bit else d.fb.cell r c := by
  unfold Drawing.plot
  split
  · rename_i h
    rw [if_neg]
    omega
  · rename_i h
    simp only
    rw [Framebuffer.cell_setCell _ _ _ _ _ _ (by omega)]
    by_cases hrc : r = cy ∧ c = cx
    · obtain ⟨rfl, rfl⟩ := hrc
      rw [if_pos ⟨rfl, rfl⟩, if_pos (by omega)]
    · rw [if_neg hrc, if_neg (fun e => hrc ⟨e.1, e.2.1⟩)]

theorem Drawing.plot_collided (d : Drawing) (cy cx : Nat) (bit : Bool) :
    (d.plot cy cx bit).collided = true ↔
      d.collided = true ∨ (bit = true ∧ d.fb.cell cy cx = true) := by
  unfold Drawing.plot
  split
  · rename_i h
    have : d.fb.cell cy cx = false := Framebuffer.cell_outside _ (by omega)
    simp [this]
  · simp

/-! ### One row of a draw -/

/-- What each cell holds after the first `n` columns of a sprite byte are drawn. -/
theorem Drawing.plotColumns_cell (d : Drawing) (b : Byte) (cy X n r c : Nat) :
    (d.plotColumns b cy X n).fb.cell r c =
      if r = cy ∧ X ≤ c ∧ c < X + n ∧ r < 32 ∧ c < 64 then d.fb.cell r c ^^ spriteBit b (c - X)
      else d.fb.cell r c := by
  induction n with
  | zero =>
    rw [if_neg (by omega)]
    rfl
  | succ n ih =>
    rw [Drawing.plotColumns, Drawing.plot_cell, ih]
    by_cases h : r = cy ∧ c = X + n ∧ r < 32 ∧ c < 64
    · rw [if_pos h, if_neg (by omega), if_pos (by omega), h.2.1, Nat.add_sub_cancel_left]
    · rw [if_neg h]
      by_cases h' : r = cy ∧ X ≤ c ∧ c < X + n ∧ r < 32 ∧ c < 64
      · rw [if_pos h', if_pos (by omega)]
      · rw [if_neg h', if_neg (by omega)]

/-- A row collides iff one of its drawn columns has a set bit over a set cell. -/
theorem Drawing.plotColumns_collided (d : Drawing) (b : Byte) (cy X n : Nat) :
    (d.plotColumns b cy X n).collided = true ↔
      d.collided = true ∨
        ∃ col, col < n ∧ spriteBit b col = true ∧ d.fb.cell cy (X + col) = true := by
  induction n with
  | zero => simp [Drawing.plotColumns]
  | succ n ih =>
    rw [Drawing.plotColumns, Drawing.plot_collided, ih, Drawing.plotColumns_cell,
      if_neg (by omega)]
    constructor
    · rintro ((h | ⟨col, h⟩) | h)
      · exact .inl h
      · exact .inr ⟨col, by omega, h.2⟩
      · exact .inr ⟨n, by omega, h⟩
    · rintro (h | ⟨col, hlt, h⟩)
      · exact .inl (.inl h)
      · by_cases hn : col = n
        · subst hn; exact .inr h
        · exact .inl (.inr ⟨col, by omega, h⟩)

/-! ### A whole draw -/

/-- What each cell holds after the first `n` rows of a sprite are drawn (44_display.md R162 to
R164). -/
theorem Drawing.plotRows_cell (d : Drawing) (mem : Memory) (addr Y X n r c : Nat) :
    (d.plotRows mem addr Y X n).fb.cell r c =
      if Y ≤ r ∧ r < Y + n ∧ X ≤ c ∧ c < X + 8 ∧ r < 32 ∧ c < 64 then
        d.fb.cell r c ^^ spriteBit (mem.read (addr + (r - Y))) (c - X)
      else d.fb.cell r c := by
  induction n with
  | zero =>
    rw [if_neg (by omega)]
    rfl
  | succ n ih =>
    rw [Drawing.plotRows, Drawing.plotColumns_cell, ih]
    by_cases h : r = Y + n ∧ X ≤ c ∧ c < X + 8 ∧ r < 32 ∧ c < 64
    · rw [if_pos h, if_neg (by omega), if_pos (by omega), h.1, Nat.add_sub_cancel_left]
    · rw [if_neg h]
      by_cases h' : Y ≤ r ∧ r < Y + n ∧ X ≤ c ∧ c < X + 8 ∧ r < 32 ∧ c < 64
      · rw [if_pos h', if_pos (by omega)]
      · rw [if_neg h', if_neg (by omega)]

/-- A draw collides iff one of its cells has a set bit over a set cell of the framebuffer before the
draw. -/
theorem Drawing.plotRows_collided (d : Drawing) (mem : Memory) (addr Y X n : Nat) :
    (d.plotRows mem addr Y X n).collided = true ↔
      d.collided = true ∨ ∃ row col, row < n ∧ col < 8 ∧
        spriteBit (mem.read (addr + row)) col = true ∧
        d.fb.cell (Y + row) (X + col) = true := by
  induction n with
  | zero => simp [Drawing.plotRows]
  | succ n ih =>
    rw [Drawing.plotRows, Drawing.plotColumns_collided, ih]
    have hold : ∀ col, (d.plotRows mem addr Y X n).fb.cell (Y + n) (X + col)
        = d.fb.cell (Y + n) (X + col) := by
      intro col
      rw [Drawing.plotRows_cell, if_neg (by omega)]
    simp only [hold]
    constructor
    · rintro ((h | ⟨row, col, h⟩) | ⟨col, h⟩)
      · exact .inl h
      · exact .inr ⟨row, col, by omega, h.2⟩
      · exact .inr ⟨n, col, by omega, h⟩
    · rintro (h | ⟨row, col, hlt, h⟩)
      · exact .inl (.inl h)
      · by_cases hn : row = n
        · subst hn; exact .inr ⟨col, h⟩
        · exact .inl (.inr ⟨row, col, by omega, h⟩)

end Sys2Proof.Machine
end

