-- ==== Sys2Proof/Laws/Memory.lean ====
section
/-! SUPPORT. The laws of memory: a read after a write, and that every memory operation keeps the
canonical form (`Memory.wf`). The read laws need no canonical form. -/

namespace Sys2Proof.Machine

/-! ### One cell -/

theorem Memory.get_erase (m : Memory) (a a' : Nat) :
    (m.erase a).get a' = if a' = a then unlistedByte a else m.get a' := by
  induction m with
  | nil => simp only [Memory.erase, List.filter_nil, Memory.get]; split <;> simp_all
  | cons c m ih =>
    obtain ⟨k, b⟩ := c
    simp only [Memory.erase] at ih
    by_cases hk : k = a
    · subst hk
      simp only [Memory.erase, List.filter_cons, bne_self_eq_false, Bool.false_eq_true, if_false,
        Memory.get, ih]
      by_cases h : a' = k
      · simp [h]
      · simp [h, Ne.symm h]
    · have hne : (k != a) = true := by simpa using hk
      simp only [Memory.erase, List.filter_cons, hne, if_true, Memory.get, ih]
      by_cases h : k = a'
      · subst h; simp [hk]
      · simp [h]

theorem Memory.get_insert (m : Memory) (a a' : Nat) (b : Byte) :
    (m.insert a b).get a' = if a' = a then b else m.get a' := by
  induction m with
  | nil =>
    simp only [Memory.insert, Memory.get]
    by_cases h : a = a'
    · simp [h]
    · simp [h, Ne.symm h]
  | cons c m ih =>
    obtain ⟨k, c⟩ := c
    simp only [Memory.insert]
    split
    · simp only [Memory.get]
      by_cases h : a = a'
      · simp [h]
      · simp [h, Ne.symm h]
    · split
      · rename_i h1 h2
        subst h2
        simp only [Memory.get]
        by_cases h : a = a'
        · simp [h]
        · simp [h, Ne.symm h]
      · rename_i h1 h2
        simp only [Memory.get, ih]
        by_cases h : k = a'
        · subst h; simp [Ne.symm h2]
        · simp [h]

/-- A cell read after a cell write. -/
theorem Memory.get_set (m : Memory) (a a' : Nat) (b : Byte) :
    (m.set a b).get a' = if a' = a then b else m.get a' := by
  unfold Memory.set
  split
  · rename_i h; rw [Memory.get_erase, h]
  · exact Memory.get_insert m a a' b

/-- A masked read after a masked write (20_memory.md R45). -/
theorem Memory.read_write (m : Memory) (a a' : Nat) (b : Byte) :
    (m.write a b).read a' = if a' % 4096 = a % 4096 then b else m.read a' :=
  Memory.get_set m (a % 4096) (a' % 4096) b

/-- A read looks at the low 12 bits of its address only (20_memory.md R41). -/
theorem Memory.read_congr (m : Memory) {a a' : Nat} (h : a % 4096 = a' % 4096) :
    m.read a = m.read a' := by unfold Memory.read; rw [h]

/-! ### A block of bytes -/

/-- A read outside a written block gives what it gave before. -/
theorem Memory.read_writeBytes_outside (bs : List Byte) (m : Memory) (addr a : Nat)
    (h : ∀ k, k < bs.length → a % 4096 ≠ (addr + k) % 4096) :
    (m.writeBytes addr bs).read a = m.read a := by
  induction bs generalizing m addr with
  | nil => rfl
  | cons b bs ih =>
    rw [Memory.writeBytes, ih, Memory.read_write, if_neg]
    · exact h 0 (by simp)
    · intro k hk
      have := h (k + 1) (by simpa using hk)
      rwa [show addr + 1 + k = addr + (k + 1) by omega]

/-- A read inside a written block gives the byte written there; the block is no longer than memory
(43_index_memory.md R148). -/
theorem Memory.read_writeBytes_inside (bs : List Byte) (m : Memory) (addr k : Nat)
    (hlen : bs.length ≤ 4096) (hk : k < bs.length) :
    (m.writeBytes addr bs).read (addr + k) = bs[k] := by
  induction bs generalizing m addr k with
  | nil => simp at hk
  | cons b bs ih =>
    simp only [List.length_cons] at hlen hk
    rw [Memory.writeBytes]
    cases k with
    | zero =>
      rw [Memory.read_writeBytes_outside, Memory.read_write]
      · simp
      · intro j hj; omega
    | succ k =>
      rw [show addr + (k + 1) = addr + 1 + k by omega, ih _ _ k (by omega) (by omega)]
      simp

/-! ### The canonical form -/

theorem Memory.wfFrom_mono {m : Memory} {lo lo' : Nat} (h : lo' ≤ lo) (hm : m.wfFrom lo = true) :
    m.wfFrom lo' = true := by
  cases m with
  | nil => rfl
  | cons c m =>
    obtain ⟨a, b⟩ := c
    simp only [Memory.wfFrom, Bool.and_eq_true, decide_eq_true_eq] at hm ⊢
    exact ⟨⟨⟨by omega, hm.1.1.2⟩, hm.1.2⟩, hm.2⟩

theorem Memory.wfFrom_erase {m : Memory} {lo : Nat} (a : Nat) (hm : m.wfFrom lo = true) :
    (m.erase a).wfFrom lo = true := by
  induction m generalizing lo with
  | nil => rfl
  | cons c m ih =>
    obtain ⟨k, b⟩ := c
    simp only [Memory.wfFrom, Bool.and_eq_true, decide_eq_true_eq] at hm
    have ih' := ih hm.2
    simp only [Memory.erase, List.filter_cons] at ih' ⊢
    split
    · simp only [Memory.wfFrom, Bool.and_eq_true, decide_eq_true_eq]
      exact ⟨hm.1, ih'⟩
    · exact Memory.wfFrom_mono (by omega) ih'

theorem Memory.wfFrom_insert {m : Memory} {lo a : Nat} {b : Byte} (hlo : lo ≤ a) (ha : a < 4096)
    (hb : b ≠ unlistedByte a) (hm : m.wfFrom lo = true) : (m.insert a b).wfFrom lo = true := by
  induction m generalizing lo with
  | nil => simp [Memory.insert, Memory.wfFrom, hlo, ha, hb]
  | cons c m ih =>
    obtain ⟨k, c⟩ := c
    simp only [Memory.wfFrom, Bool.and_eq_true, decide_eq_true_eq] at hm
    simp only [Memory.insert]
    split
    · simp only [Memory.wfFrom, Bool.and_eq_true, decide_eq_true_eq, bne_iff_ne]
      exact ⟨⟨⟨hlo, ha⟩, hb⟩, ⟨⟨by omega, hm.1.1.2⟩, by simpa using hm.1.2⟩, hm.2⟩
    · split
      · rename_i h1 h2
        subst h2
        simp only [Memory.wfFrom, Bool.and_eq_true, decide_eq_true_eq, bne_iff_ne]
        exact ⟨⟨⟨hlo, ha⟩, hb⟩, hm.2⟩
      · simp only [Memory.wfFrom, Bool.and_eq_true, decide_eq_true_eq]
        exact ⟨hm.1, ih (by omega) hm.2⟩

/-- A byte write keeps the canonical form. -/
theorem Memory.wf_write {m : Memory} (addr : Nat) (b : Byte) (hm : m.wf = true) :
    (m.write addr b).wf = true := by
  unfold Memory.write Memory.set
  split
  · exact Memory.wfFrom_erase _ hm
  · rename_i h
    exact Memory.wfFrom_insert (Nat.zero_le _) (Nat.mod_lt _ (by decide)) h hm

/-- A block write keeps the canonical form. -/
theorem Memory.wf_writeBytes (bs : List Byte) {m : Memory} (addr : Nat) (hm : m.wf = true) :
    (m.writeBytes addr bs).wf = true := by
  induction bs generalizing m addr with
  | nil => exact hm
  | cons b bs ih => exact ih (addr + 1) (Memory.wf_write addr b hm)

/-- Memory after a reset is in canonical form. -/
theorem Memory.wf_afterReset (font : Font) (image : Image) :
    (Memory.afterReset font image).wf = true :=
  Memory.wf_writeBytes _ _ (Memory.wf_writeBytes _ _ rfl)

theorem State.reset_mem_wf : State.reset.mem.wf = true := rfl

/-- The placing of an instruction word keeps the canonical form. -/
theorem State.placeWord_mem_wf {s : State} (nbits w : Nat) (h : s.mem.wf = true) :
    (s.placeWord nbits w).mem.wf = true :=
  Memory.wf_writeBytes _ _ h

/-! ### The state's view -/

theorem State.memRead_storeBytes_outside (s : State) (bs : List Byte) (addr a : Nat)
    (h : ∀ k, k < bs.length → a % 4096 ≠ (addr + k) % 4096) :
    (s.storeBytes addr bs).memRead a = s.memRead a :=
  Memory.read_writeBytes_outside bs s.mem addr a h

theorem State.memRead_storeBytes_inside (s : State) (bs : List Byte) (addr k : Nat)
    (hlen : bs.length ≤ 4096) (hk : k < bs.length) :
    (s.storeBytes addr bs).memRead (addr + k) = bs[k] :=
  Memory.read_writeBytes_inside bs s.mem addr k hlen hk

end Sys2Proof.Machine
end

