-- ==== Sys2Proof/Laws/State.lean ====
section
/-! SUPPORT. One lemma for each field of the state and each named update of it (Machine/Ops.lean), so
that no proof unfolds a record update. -/

namespace Sys2Proof.Machine

variable (s : State)

/-! ### The program counter's two usual moves -/

@[simp] theorem State.advance_eq : s.advance = s.setPc (s.pc + 2#16) := rfl
@[simp] theorem State.skipIf_eq (c : Bool) :
    s.skipIf c = s.setPc (if c then s.pc + 4#16 else s.pc + 2#16) := rfl

/-! ### setV -/

@[simp] theorem State.setV_mem (x : Reg) (b : Byte) : (s.setV x b).mem = s.mem := rfl
@[simp] theorem State.setV_v (x : Reg) (b : Byte) : (s.setV x b).v = s.v.set x.val b := rfl
@[simp] theorem State.setV_i (x : Reg) (b : Byte) : (s.setV x b).i = s.i := rfl
@[simp] theorem State.setV_pc (x : Reg) (b : Byte) : (s.setV x b).pc = s.pc := rfl
@[simp] theorem State.setV_stack (x : Reg) (b : Byte) : (s.setV x b).stack = s.stack := rfl
@[simp] theorem State.setV_sp (x : Reg) (b : Byte) : (s.setV x b).sp = s.sp := rfl
@[simp] theorem State.setV_dt (x : Reg) (b : Byte) : (s.setV x b).dt = s.dt := rfl
@[simp] theorem State.setV_st (x : Reg) (b : Byte) : (s.setV x b).st = s.st := rfl
@[simp] theorem State.setV_fb (x : Reg) (b : Byte) : (s.setV x b).fb = s.fb := rfl
@[simp] theorem State.setV_cyc (x : Reg) (b : Byte) : (s.setV x b).cyc = s.cyc := rfl
@[simp] theorem State.setV_key (x : Reg) (b : Byte) : (s.setV x b).key = s.key := rfl
@[simp] theorem State.setV_halted (x : Reg) (b : Byte) : (s.setV x b).halted = s.halted := rfl
@[simp] theorem State.setV_cause (x : Reg) (b : Byte) : (s.setV x b).cause = s.cause := rfl
@[simp] theorem State.setV_closed (x : Reg) (b : Byte) : (s.setV x b).closed = s.closed := rfl
@[simp] theorem State.setV_fbOut (x : Reg) (b : Byte) : (s.setV x b).fbOut = s.fbOut := rfl
@[simp] theorem State.setV_frames (x : Reg) (b : Byte) : (s.setV x b).frames = s.frames := rfl
@[simp] theorem State.setV_polls (x : Reg) (b : Byte) : (s.setV x b).polls = s.polls := rfl
@[simp] theorem State.setV_rndIn (x : Reg) (b : Byte) : (s.setV x b).rndIn = s.rndIn := rfl
@[simp] theorem State.setV_rndCount (x : Reg) (b : Byte) : (s.setV x b).rndCount = s.rndCount := rfl

/-! ### setI -/

@[simp] theorem State.setI_mem (w : Word) : (s.setI w).mem = s.mem := rfl
@[simp] theorem State.setI_v (w : Word) : (s.setI w).v = s.v := rfl
@[simp] theorem State.setI_i (w : Word) : (s.setI w).i = w := rfl
@[simp] theorem State.setI_pc (w : Word) : (s.setI w).pc = s.pc := rfl
@[simp] theorem State.setI_stack (w : Word) : (s.setI w).stack = s.stack := rfl
@[simp] theorem State.setI_sp (w : Word) : (s.setI w).sp = s.sp := rfl
@[simp] theorem State.setI_dt (w : Word) : (s.setI w).dt = s.dt := rfl
@[simp] theorem State.setI_st (w : Word) : (s.setI w).st = s.st := rfl
@[simp] theorem State.setI_fb (w : Word) : (s.setI w).fb = s.fb := rfl
@[simp] theorem State.setI_cyc (w : Word) : (s.setI w).cyc = s.cyc := rfl
@[simp] theorem State.setI_key (w : Word) : (s.setI w).key = s.key := rfl
@[simp] theorem State.setI_halted (w : Word) : (s.setI w).halted = s.halted := rfl
@[simp] theorem State.setI_cause (w : Word) : (s.setI w).cause = s.cause := rfl
@[simp] theorem State.setI_closed (w : Word) : (s.setI w).closed = s.closed := rfl
@[simp] theorem State.setI_fbOut (w : Word) : (s.setI w).fbOut = s.fbOut := rfl
@[simp] theorem State.setI_frames (w : Word) : (s.setI w).frames = s.frames := rfl
@[simp] theorem State.setI_polls (w : Word) : (s.setI w).polls = s.polls := rfl
@[simp] theorem State.setI_rndIn (w : Word) : (s.setI w).rndIn = s.rndIn := rfl
@[simp] theorem State.setI_rndCount (w : Word) : (s.setI w).rndCount = s.rndCount := rfl

/-! ### setDT -/

@[simp] theorem State.setDT_mem (b : Byte) : (s.setDT b).mem = s.mem := rfl
@[simp] theorem State.setDT_v (b : Byte) : (s.setDT b).v = s.v := rfl
@[simp] theorem State.setDT_i (b : Byte) : (s.setDT b).i = s.i := rfl
@[simp] theorem State.setDT_pc (b : Byte) : (s.setDT b).pc = s.pc := rfl
@[simp] theorem State.setDT_stack (b : Byte) : (s.setDT b).stack = s.stack := rfl
@[simp] theorem State.setDT_sp (b : Byte) : (s.setDT b).sp = s.sp := rfl
@[simp] theorem State.setDT_dt (b : Byte) : (s.setDT b).dt = b := rfl
@[simp] theorem State.setDT_st (b : Byte) : (s.setDT b).st = s.st := rfl
@[simp] theorem State.setDT_fb (b : Byte) : (s.setDT b).fb = s.fb := rfl
@[simp] theorem State.setDT_cyc (b : Byte) : (s.setDT b).cyc = s.cyc := rfl
@[simp] theorem State.setDT_key (b : Byte) : (s.setDT b).key = s.key := rfl
@[simp] theorem State.setDT_halted (b : Byte) : (s.setDT b).halted = s.halted := rfl
@[simp] theorem State.setDT_cause (b : Byte) : (s.setDT b).cause = s.cause := rfl
@[simp] theorem State.setDT_closed (b : Byte) : (s.setDT b).closed = s.closed := rfl
@[simp] theorem State.setDT_fbOut (b : Byte) : (s.setDT b).fbOut = s.fbOut := rfl
@[simp] theorem State.setDT_frames (b : Byte) : (s.setDT b).frames = s.frames := rfl
@[simp] theorem State.setDT_polls (b : Byte) : (s.setDT b).polls = s.polls := rfl
@[simp] theorem State.setDT_rndIn (b : Byte) : (s.setDT b).rndIn = s.rndIn := rfl
@[simp] theorem State.setDT_rndCount (b : Byte) : (s.setDT b).rndCount = s.rndCount := rfl

/-! ### setST -/

@[simp] theorem State.setST_mem (b : Byte) : (s.setST b).mem = s.mem := rfl
@[simp] theorem State.setST_v (b : Byte) : (s.setST b).v = s.v := rfl
@[simp] theorem State.setST_i (b : Byte) : (s.setST b).i = s.i := rfl
@[simp] theorem State.setST_pc (b : Byte) : (s.setST b).pc = s.pc := rfl
@[simp] theorem State.setST_stack (b : Byte) : (s.setST b).stack = s.stack := rfl
@[simp] theorem State.setST_sp (b : Byte) : (s.setST b).sp = s.sp := rfl
@[simp] theorem State.setST_dt (b : Byte) : (s.setST b).dt = s.dt := rfl
@[simp] theorem State.setST_st (b : Byte) : (s.setST b).st = b := rfl
@[simp] theorem State.setST_fb (b : Byte) : (s.setST b).fb = s.fb := rfl
@[simp] theorem State.setST_cyc (b : Byte) : (s.setST b).cyc = s.cyc := rfl
@[simp] theorem State.setST_key (b : Byte) : (s.setST b).key = s.key := rfl
@[simp] theorem State.setST_halted (b : Byte) : (s.setST b).halted = s.halted := rfl
@[simp] theorem State.setST_cause (b : Byte) : (s.setST b).cause = s.cause := rfl
@[simp] theorem State.setST_closed (b : Byte) : (s.setST b).closed = s.closed := rfl
@[simp] theorem State.setST_fbOut (b : Byte) : (s.setST b).fbOut = s.fbOut := rfl
@[simp] theorem State.setST_frames (b : Byte) : (s.setST b).frames = s.frames := rfl
@[simp] theorem State.setST_polls (b : Byte) : (s.setST b).polls = s.polls := rfl
@[simp] theorem State.setST_rndIn (b : Byte) : (s.setST b).rndIn = s.rndIn := rfl
@[simp] theorem State.setST_rndCount (b : Byte) : (s.setST b).rndCount = s.rndCount := rfl

/-! ### setPc -/

@[simp] theorem State.setPc_mem (w : Word) : (s.setPc w).mem = s.mem := rfl
@[simp] theorem State.setPc_v (w : Word) : (s.setPc w).v = s.v := rfl
@[simp] theorem State.setPc_i (w : Word) : (s.setPc w).i = s.i := rfl
@[simp] theorem State.setPc_pc (w : Word) : (s.setPc w).pc = w := rfl
@[simp] theorem State.setPc_stack (w : Word) : (s.setPc w).stack = s.stack := rfl
@[simp] theorem State.setPc_sp (w : Word) : (s.setPc w).sp = s.sp := rfl
@[simp] theorem State.setPc_dt (w : Word) : (s.setPc w).dt = s.dt := rfl
@[simp] theorem State.setPc_st (w : Word) : (s.setPc w).st = s.st := rfl
@[simp] theorem State.setPc_fb (w : Word) : (s.setPc w).fb = s.fb := rfl
@[simp] theorem State.setPc_cyc (w : Word) : (s.setPc w).cyc = s.cyc := rfl
@[simp] theorem State.setPc_key (w : Word) : (s.setPc w).key = s.key := rfl
@[simp] theorem State.setPc_halted (w : Word) : (s.setPc w).halted = s.halted := rfl
@[simp] theorem State.setPc_cause (w : Word) : (s.setPc w).cause = s.cause := rfl
@[simp] theorem State.setPc_closed (w : Word) : (s.setPc w).closed = s.closed := rfl
@[simp] theorem State.setPc_fbOut (w : Word) : (s.setPc w).fbOut = s.fbOut := rfl
@[simp] theorem State.setPc_frames (w : Word) : (s.setPc w).frames = s.frames := rfl
@[simp] theorem State.setPc_polls (w : Word) : (s.setPc w).polls = s.polls := rfl
@[simp] theorem State.setPc_rndIn (w : Word) : (s.setPc w).rndIn = s.rndIn := rfl
@[simp] theorem State.setPc_rndCount (w : Word) : (s.setPc w).rndCount = s.rndCount := rfl

/-! ### setFB -/

@[simp] theorem State.setFB_mem (f : Framebuffer) : (s.setFB f).mem = s.mem := rfl
@[simp] theorem State.setFB_v (f : Framebuffer) : (s.setFB f).v = s.v := rfl
@[simp] theorem State.setFB_i (f : Framebuffer) : (s.setFB f).i = s.i := rfl
@[simp] theorem State.setFB_pc (f : Framebuffer) : (s.setFB f).pc = s.pc := rfl
@[simp] theorem State.setFB_stack (f : Framebuffer) : (s.setFB f).stack = s.stack := rfl
@[simp] theorem State.setFB_sp (f : Framebuffer) : (s.setFB f).sp = s.sp := rfl
@[simp] theorem State.setFB_dt (f : Framebuffer) : (s.setFB f).dt = s.dt := rfl
@[simp] theorem State.setFB_st (f : Framebuffer) : (s.setFB f).st = s.st := rfl
@[simp] theorem State.setFB_fb (f : Framebuffer) : (s.setFB f).fb = f := rfl
@[simp] theorem State.setFB_cyc (f : Framebuffer) : (s.setFB f).cyc = s.cyc := rfl
@[simp] theorem State.setFB_key (f : Framebuffer) : (s.setFB f).key = s.key := rfl
@[simp] theorem State.setFB_halted (f : Framebuffer) : (s.setFB f).halted = s.halted := rfl
@[simp] theorem State.setFB_cause (f : Framebuffer) : (s.setFB f).cause = s.cause := rfl
@[simp] theorem State.setFB_closed (f : Framebuffer) : (s.setFB f).closed = s.closed := rfl
@[simp] theorem State.setFB_fbOut (f : Framebuffer) : (s.setFB f).fbOut = s.fbOut := rfl
@[simp] theorem State.setFB_frames (f : Framebuffer) : (s.setFB f).frames = s.frames := rfl
@[simp] theorem State.setFB_polls (f : Framebuffer) : (s.setFB f).polls = s.polls := rfl
@[simp] theorem State.setFB_rndIn (f : Framebuffer) : (s.setFB f).rndIn = s.rndIn := rfl
@[simp] theorem State.setFB_rndCount (f : Framebuffer) : (s.setFB f).rndCount = s.rndCount := rfl

/-! ### storeBytes -/

@[simp] theorem State.storeBytes_mem (a : Nat) (bs : List Byte) :
    (s.storeBytes a bs).mem = s.mem.writeBytes a bs := rfl
@[simp] theorem State.storeBytes_v (a : Nat) (bs : List Byte) : (s.storeBytes a bs).v = s.v := rfl
@[simp] theorem State.storeBytes_i (a : Nat) (bs : List Byte) : (s.storeBytes a bs).i = s.i := rfl
@[simp] theorem State.storeBytes_pc (a : Nat) (bs : List Byte) :
    (s.storeBytes a bs).pc = s.pc := rfl
@[simp] theorem State.storeBytes_stack (a : Nat) (bs : List Byte) :
    (s.storeBytes a bs).stack = s.stack := rfl
@[simp] theorem State.storeBytes_sp (a : Nat) (bs : List Byte) :
    (s.storeBytes a bs).sp = s.sp := rfl
@[simp] theorem State.storeBytes_dt (a : Nat) (bs : List Byte) :
    (s.storeBytes a bs).dt = s.dt := rfl
@[simp] theorem State.storeBytes_st (a : Nat) (bs : List Byte) :
    (s.storeBytes a bs).st = s.st := rfl
@[simp] theorem State.storeBytes_fb (a : Nat) (bs : List Byte) :
    (s.storeBytes a bs).fb = s.fb := rfl
@[simp] theorem State.storeBytes_cyc (a : Nat) (bs : List Byte) :
    (s.storeBytes a bs).cyc = s.cyc := rfl
@[simp] theorem State.storeBytes_key (a : Nat) (bs : List Byte) :
    (s.storeBytes a bs).key = s.key := rfl
@[simp] theorem State.storeBytes_halted (a : Nat) (bs : List Byte) :
    (s.storeBytes a bs).halted = s.halted := rfl
@[simp] theorem State.storeBytes_cause (a : Nat) (bs : List Byte) :
    (s.storeBytes a bs).cause = s.cause := rfl
@[simp] theorem State.storeBytes_closed (a : Nat) (bs : List Byte) :
    (s.storeBytes a bs).closed = s.closed := rfl
@[simp] theorem State.storeBytes_fbOut (a : Nat) (bs : List Byte) :
    (s.storeBytes a bs).fbOut = s.fbOut := rfl
@[simp] theorem State.storeBytes_frames (a : Nat) (bs : List Byte) :
    (s.storeBytes a bs).frames = s.frames := rfl
@[simp] theorem State.storeBytes_polls (a : Nat) (bs : List Byte) :
    (s.storeBytes a bs).polls = s.polls := rfl
@[simp] theorem State.storeBytes_rndIn (a : Nat) (bs : List Byte) :
    (s.storeBytes a bs).rndIn = s.rndIn := rfl
@[simp] theorem State.storeBytes_rndCount (a : Nat) (bs : List Byte) :
    (s.storeBytes a bs).rndCount = s.rndCount := rfl

/-! ### pushAt -/

@[simp] theorem State.pushAt_mem (k : Fin 16) (w : Word) : (s.pushAt k w).mem = s.mem := rfl
@[simp] theorem State.pushAt_v (k : Fin 16) (w : Word) : (s.pushAt k w).v = s.v := rfl
@[simp] theorem State.pushAt_i (k : Fin 16) (w : Word) : (s.pushAt k w).i = s.i := rfl
@[simp] theorem State.pushAt_pc (k : Fin 16) (w : Word) : (s.pushAt k w).pc = s.pc := rfl
@[simp] theorem State.pushAt_stack (k : Fin 16) (w : Word) :
    (s.pushAt k w).stack = s.stack.set k.val w := rfl
@[simp] theorem State.pushAt_sp (k : Fin 16) (w : Word) : (s.pushAt k w).sp = k.succ := rfl
@[simp] theorem State.pushAt_dt (k : Fin 16) (w : Word) : (s.pushAt k w).dt = s.dt := rfl
@[simp] theorem State.pushAt_st (k : Fin 16) (w : Word) : (s.pushAt k w).st = s.st := rfl
@[simp] theorem State.pushAt_fb (k : Fin 16) (w : Word) : (s.pushAt k w).fb = s.fb := rfl
@[simp] theorem State.pushAt_cyc (k : Fin 16) (w : Word) : (s.pushAt k w).cyc = s.cyc := rfl
@[simp] theorem State.pushAt_key (k : Fin 16) (w : Word) : (s.pushAt k w).key = s.key := rfl
@[simp] theorem State.pushAt_halted (k : Fin 16) (w : Word) :
    (s.pushAt k w).halted = s.halted := rfl
@[simp] theorem State.pushAt_cause (k : Fin 16) (w : Word) : (s.pushAt k w).cause = s.cause := rfl
@[simp] theorem State.pushAt_closed (k : Fin 16) (w : Word) :
    (s.pushAt k w).closed = s.closed := rfl
@[simp] theorem State.pushAt_fbOut (k : Fin 16) (w : Word) : (s.pushAt k w).fbOut = s.fbOut := rfl
@[simp] theorem State.pushAt_frames (k : Fin 16) (w : Word) :
    (s.pushAt k w).frames = s.frames := rfl
@[simp] theorem State.pushAt_polls (k : Fin 16) (w : Word) : (s.pushAt k w).polls = s.polls := rfl
@[simp] theorem State.pushAt_rndIn (k : Fin 16) (w : Word) : (s.pushAt k w).rndIn = s.rndIn := rfl
@[simp] theorem State.pushAt_rndCount (k : Fin 16) (w : Word) :
    (s.pushAt k w).rndCount = s.rndCount := rfl

/-! ### popTo -/

@[simp] theorem State.popTo_mem (k : Fin 16) : (s.popTo k).mem = s.mem := rfl
@[simp] theorem State.popTo_v (k : Fin 16) : (s.popTo k).v = s.v := rfl
@[simp] theorem State.popTo_i (k : Fin 16) : (s.popTo k).i = s.i := rfl
@[simp] theorem State.popTo_pc (k : Fin 16) : (s.popTo k).pc = s.pc := rfl
@[simp] theorem State.popTo_stack (k : Fin 16) : (s.popTo k).stack = s.stack := rfl
@[simp] theorem State.popTo_sp (k : Fin 16) : (s.popTo k).sp = k.castSucc := rfl
@[simp] theorem State.popTo_dt (k : Fin 16) : (s.popTo k).dt = s.dt := rfl
@[simp] theorem State.popTo_st (k : Fin 16) : (s.popTo k).st = s.st := rfl
@[simp] theorem State.popTo_fb (k : Fin 16) : (s.popTo k).fb = s.fb := rfl
@[simp] theorem State.popTo_cyc (k : Fin 16) : (s.popTo k).cyc = s.cyc := rfl
@[simp] theorem State.popTo_key (k : Fin 16) : (s.popTo k).key = s.key := rfl
@[simp] theorem State.popTo_halted (k : Fin 16) : (s.popTo k).halted = s.halted := rfl
@[simp] theorem State.popTo_cause (k : Fin 16) : (s.popTo k).cause = s.cause := rfl
@[simp] theorem State.popTo_closed (k : Fin 16) : (s.popTo k).closed = s.closed := rfl
@[simp] theorem State.popTo_fbOut (k : Fin 16) : (s.popTo k).fbOut = s.fbOut := rfl
@[simp] theorem State.popTo_frames (k : Fin 16) : (s.popTo k).frames = s.frames := rfl
@[simp] theorem State.popTo_polls (k : Fin 16) : (s.popTo k).polls = s.polls := rfl
@[simp] theorem State.popTo_rndIn (k : Fin 16) : (s.popTo k).rndIn = s.rndIn := rfl
@[simp] theorem State.popTo_rndCount (k : Fin 16) : (s.popTo k).rndCount = s.rndCount := rfl

/-! ### consumeRnd -/

@[simp] theorem State.consumeRnd_mem : s.consumeRnd.mem = s.mem := rfl
@[simp] theorem State.consumeRnd_v : s.consumeRnd.v = s.v := rfl
@[simp] theorem State.consumeRnd_i : s.consumeRnd.i = s.i := rfl
@[simp] theorem State.consumeRnd_pc : s.consumeRnd.pc = s.pc := rfl
@[simp] theorem State.consumeRnd_stack : s.consumeRnd.stack = s.stack := rfl
@[simp] theorem State.consumeRnd_sp : s.consumeRnd.sp = s.sp := rfl
@[simp] theorem State.consumeRnd_dt : s.consumeRnd.dt = s.dt := rfl
@[simp] theorem State.consumeRnd_st : s.consumeRnd.st = s.st := rfl
@[simp] theorem State.consumeRnd_fb : s.consumeRnd.fb = s.fb := rfl
@[simp] theorem State.consumeRnd_cyc : s.consumeRnd.cyc = s.cyc := rfl
@[simp] theorem State.consumeRnd_key : s.consumeRnd.key = s.key := rfl
@[simp] theorem State.consumeRnd_halted : s.consumeRnd.halted = s.halted := rfl
@[simp] theorem State.consumeRnd_cause : s.consumeRnd.cause = s.cause := rfl
@[simp] theorem State.consumeRnd_closed : s.consumeRnd.closed = s.closed := rfl
@[simp] theorem State.consumeRnd_fbOut : s.consumeRnd.fbOut = s.fbOut := rfl
@[simp] theorem State.consumeRnd_frames : s.consumeRnd.frames = s.frames := rfl
@[simp] theorem State.consumeRnd_polls : s.consumeRnd.polls = s.polls := rfl
@[simp] theorem State.consumeRnd_rndIn : s.consumeRnd.rndIn = s.rndIn.tail := rfl
@[simp] theorem State.consumeRnd_rndCount : s.consumeRnd.rndCount = s.rndCount + 1 := rfl

/-! ### raiseHalt -/

@[simp] theorem State.raiseHalt_mem (c : Cause) : (s.raiseHalt c).mem = s.mem := rfl
@[simp] theorem State.raiseHalt_v (c : Cause) : (s.raiseHalt c).v = s.v := rfl
@[simp] theorem State.raiseHalt_i (c : Cause) : (s.raiseHalt c).i = s.i := rfl
@[simp] theorem State.raiseHalt_pc (c : Cause) : (s.raiseHalt c).pc = s.pc := rfl
@[simp] theorem State.raiseHalt_stack (c : Cause) : (s.raiseHalt c).stack = s.stack := rfl
@[simp] theorem State.raiseHalt_sp (c : Cause) : (s.raiseHalt c).sp = s.sp := rfl
@[simp] theorem State.raiseHalt_dt (c : Cause) : (s.raiseHalt c).dt = s.dt := rfl
@[simp] theorem State.raiseHalt_st (c : Cause) : (s.raiseHalt c).st = s.st := rfl
@[simp] theorem State.raiseHalt_fb (c : Cause) : (s.raiseHalt c).fb = s.fb := rfl
@[simp] theorem State.raiseHalt_cyc (c : Cause) : (s.raiseHalt c).cyc = s.cyc := rfl
@[simp] theorem State.raiseHalt_key (c : Cause) : (s.raiseHalt c).key = s.key := rfl
@[simp] theorem State.raiseHalt_halted (c : Cause) : (s.raiseHalt c).halted = true := rfl
@[simp] theorem State.raiseHalt_cause (c : Cause) : (s.raiseHalt c).cause = c := rfl
@[simp] theorem State.raiseHalt_closed (c : Cause) : (s.raiseHalt c).closed = s.closed := rfl
@[simp] theorem State.raiseHalt_fbOut (c : Cause) : (s.raiseHalt c).fbOut = s.fbOut := rfl
@[simp] theorem State.raiseHalt_frames (c : Cause) : (s.raiseHalt c).frames = s.frames := rfl
@[simp] theorem State.raiseHalt_polls (c : Cause) : (s.raiseHalt c).polls = s.polls := rfl
@[simp] theorem State.raiseHalt_rndIn (c : Cause) : (s.raiseHalt c).rndIn = s.rndIn := rfl
@[simp] theorem State.raiseHalt_rndCount (c : Cause) : (s.raiseHalt c).rndCount = s.rndCount := rfl

/-! ### frameBoundary -/

@[simp] theorem State.frameBoundary_mem : s.frameBoundary.mem = s.mem := rfl
@[simp] theorem State.frameBoundary_v : s.frameBoundary.v = s.v := rfl
@[simp] theorem State.frameBoundary_i : s.frameBoundary.i = s.i := rfl
@[simp] theorem State.frameBoundary_pc : s.frameBoundary.pc = s.pc := rfl
@[simp] theorem State.frameBoundary_stack : s.frameBoundary.stack = s.stack := rfl
@[simp] theorem State.frameBoundary_sp : s.frameBoundary.sp = s.sp := rfl
@[simp] theorem State.frameBoundary_dt : s.frameBoundary.dt = tickDown s.dt := rfl
@[simp] theorem State.frameBoundary_st : s.frameBoundary.st = tickDown s.st := rfl
@[simp] theorem State.frameBoundary_fb : s.frameBoundary.fb = s.fb := rfl
@[simp] theorem State.frameBoundary_cyc : s.frameBoundary.cyc = 0 := rfl
@[simp] theorem State.frameBoundary_key : s.frameBoundary.key = s.poll.key := rfl
@[simp] theorem State.frameBoundary_halted : s.frameBoundary.halted = s.halted := rfl
@[simp] theorem State.frameBoundary_cause : s.frameBoundary.cause = s.cause := rfl
@[simp] theorem State.frameBoundary_closed :
    s.frameBoundary.closed = (s.closed || s.poll.close) := rfl
@[simp] theorem State.frameBoundary_fbOut : s.frameBoundary.fbOut = some s.fb := rfl
@[simp] theorem State.frameBoundary_frames : s.frameBoundary.frames = s.frames + 1 := rfl
@[simp] theorem State.frameBoundary_polls : s.frameBoundary.polls = s.polls.tail := rfl
@[simp] theorem State.frameBoundary_rndIn : s.frameBoundary.rndIn = s.rndIn := rfl
@[simp] theorem State.frameBoundary_rndCount : s.frameBoundary.rndCount = s.rndCount := rfl

/-! ### Reading a register after an update -/

@[simp] theorem State.getV_setV (x r : Reg) (b : Byte) :
    (s.setV x b).getV r = if x = r then b else s.getV r := by
  simp [State.getV, State.setV, Vector.getElem_set, Fin.ext_iff]

@[simp] theorem State.getV_setI (r : Reg) (w : Word) : (s.setI w).getV r = s.getV r := rfl
@[simp] theorem State.getV_setDT (r : Reg) (b : Byte) : (s.setDT b).getV r = s.getV r := rfl
@[simp] theorem State.getV_setST (r : Reg) (b : Byte) : (s.setST b).getV r = s.getV r := rfl
@[simp] theorem State.getV_setPc (r : Reg) (w : Word) : (s.setPc w).getV r = s.getV r := rfl
@[simp] theorem State.getV_setFB (r : Reg) (f : Framebuffer) : (s.setFB f).getV r = s.getV r := rfl
@[simp] theorem State.getV_storeBytes (r : Reg) (a : Nat) (bs : List Byte) :
    (s.storeBytes a bs).getV r = s.getV r := rfl
@[simp] theorem State.getV_pushAt (r : Reg) (k : Fin 16) (w : Word) :
    (s.pushAt k w).getV r = s.getV r := rfl
@[simp] theorem State.getV_popTo (r : Reg) (k : Fin 16) : (s.popTo k).getV r = s.getV r := rfl
@[simp] theorem State.getV_consumeRnd (r : Reg) : s.consumeRnd.getV r = s.getV r := rfl
@[simp] theorem State.getV_raiseHalt (r : Reg) (c : Cause) : (s.raiseHalt c).getV r = s.getV r := rfl
@[simp] theorem State.getV_frameBoundary (r : Reg) : s.frameBoundary.getV r = s.getV r := rfl

/-! ### Reading memory after an update that stores nothing -/

@[simp] theorem State.memRead_setV (x : Reg) (b : Byte) (a : Nat) :
    (s.setV x b).memRead a = s.memRead a := rfl
@[simp] theorem State.memRead_setI (w : Word) (a : Nat) : (s.setI w).memRead a = s.memRead a := rfl
@[simp] theorem State.memRead_setDT (b : Byte) (a : Nat) : (s.setDT b).memRead a = s.memRead a := rfl
@[simp] theorem State.memRead_setST (b : Byte) (a : Nat) : (s.setST b).memRead a = s.memRead a := rfl
@[simp] theorem State.memRead_setPc (w : Word) (a : Nat) : (s.setPc w).memRead a = s.memRead a := rfl
@[simp] theorem State.memRead_setFB (f : Framebuffer) (a : Nat) :
    (s.setFB f).memRead a = s.memRead a := rfl
@[simp] theorem State.memRead_pushAt (k : Fin 16) (w : Word) (a : Nat) :
    (s.pushAt k w).memRead a = s.memRead a := rfl
@[simp] theorem State.memRead_popTo (k : Fin 16) (a : Nat) :
    (s.popTo k).memRead a = s.memRead a := rfl
@[simp] theorem State.memRead_consumeRnd (a : Nat) : s.consumeRnd.memRead a = s.memRead a := rfl
@[simp] theorem State.memRead_raiseHalt (c : Cause) (a : Nat) :
    (s.raiseHalt c).memRead a = s.memRead a := rfl

end Sys2Proof.Machine
end

