-- ==== Sys2Proof/Laws/Operands.lean ====
section
/-! SUPPORT. The laws of the operand forms and of the flag computations: their values as numbers, and
what the register operations over them leave. -/

namespace Sys2Proof.Machine

/-! ### Flags -/

theorem flagByte_cases (c : Bool) : flagByte c = 0#8 ∨ flagByte c = 1#8 := by
  cases c <;> simp [flagByte]

theorem flagByte_eq_one (c : Bool) : flagByte c = 1#8 ↔ c = true := by
  cases c <;> simp [flagByte]

theorem sum9_toNat (a b : Byte) : (sum9 a b).toNat = a.toNat + b.toNat := by
  have := a.isLt; have := b.isLt
  simp only [sum9, BitVec.toNat_add, BitVec.toNat_setWidth]
  omega

/-- The low half of the 9-bit sum is the sum modulo 256 (42_alu.md R118). -/
theorem sumLow_eq (a b : Byte) : sumLow a b = a + b := by
  apply BitVec.eq_of_toNat_eq
  simp only [sumLow, BitVec.toNat_setWidth, sum9_toNat, BitVec.toNat_add]

/-- The carry is 1 iff the sum exceeds 0xFF (42_alu.md R126). -/
theorem carryFlag_eq (a b : Byte) : carryFlag a b = if 255 < a.toNat + b.toNat then 1#8 else 0#8 := by
  have ha := a.isLt; have hb := b.isLt
  have : (sum9 a b).getLsbD 8 = decide (255 < a.toNat + b.toNat) := by
    rw [BitVec.getLsbD, sum9_toNat, Nat.testBit_eq_decide_div_mod_eq]
    congr 1
    apply propext
    omega
  unfold carryFlag flagByte
  rw [this]
  simp

theorem greaterFlag_eq (a b : Byte) :
    greaterFlag a b = if b.toNat < a.toNat then 1#8 else 0#8 := by
  simp [greaterFlag, flagByte]

/-! ### The result and the flag -/

/-- VF ends holding the flag, whatever the destination is (42_alu.md R119). -/
@[simp] theorem State.getV_setResultAndFlag (s : State) (x r : Reg) (res flag : Byte) :
    (s.setResultAndFlag x res flag).getV r =
      if regVF = r then flag else if x = r then res else s.getV r := by
  simp [State.setResultAndFlag]

/-- Writing a result and a flag writes registers only. -/
theorem State.setResultAndFlag_frame (s : State) (x : Reg) (res flag : Byte) :
    ∃ v, s.setResultAndFlag x res flag = { s with v := v } := ⟨_, rfl⟩

/-! ### Blocks of registers -/

@[simp] theorem State.firstRegs_length (s : State) (x : Reg) :
    (s.firstRegs x).length = x.val + 1 := by
  simp [State.firstRegs]

theorem State.firstRegs_getElem (s : State) (x : Reg) (k : Nat) (h : k < (s.firstRegs x).length)
    (hk : k < 16) : (s.firstRegs x)[k] = s.getV ⟨k, hk⟩ := by
  simp [State.firstRegs, State.getV]

/-- After a block load of `n` registers, those below `n` hold the bytes of the block and the others
are as before (43_index_memory.md R150). -/
theorem State.getV_loadRegs (s : State) (addr n : Nat) (hn : n ≤ 16) (r : Reg) :
    (s.loadRegs addr n).getV r = if r.val < n then s.memRead (addr + r.val) else s.getV r := by
  induction n with
  | zero => simp [State.loadRegs]
  | succ n ih =>
    rw [State.loadRegs, State.getV_setV, ih (by omega)]
    by_cases h : r.val = n
    · have : Fin.ofNat 16 n = r := by
        apply Fin.ext
        simp only [Fin.ofNat, Nat.mod_eq_of_lt (show n < 16 by omega), h]
      rw [if_pos this, if_pos (by omega), h]
    · have : Fin.ofNat 16 n ≠ r := by
        intro e
        apply h
        rw [← e]
        simp only [Fin.ofNat, Nat.mod_eq_of_lt (show n < 16 by omega)]
      rw [if_neg this]
      by_cases hlt : r.val < n
      · rw [if_pos hlt, if_pos (by omega)]
      · rw [if_neg hlt, if_neg (by omega)]

/-- A block load writes registers only. -/
theorem State.loadRegs_frame (s : State) (addr n : Nat) :
    ∃ v, s.loadRegs addr n = { s with v := v } := by
  induction n with
  | zero => exact ⟨s.v, rfl⟩
  | succ n ih =>
    obtain ⟨v, hv⟩ := ih
    rw [State.loadRegs, hv]
    exact ⟨_, rfl⟩

/-! ### Immediates and digits -/

theorem zextAddr_toNat (nnn : Addr) : (zextAddr nnn).toNat = nnn.toNat := by
  have := nnn.isLt
  simp only [zextAddr, BitVec.toNat_setWidth]
  omega

theorem zextByte_toNat (b : Byte) : (zextByte b).toNat = b.toNat := by
  have := b.isLt
  simp only [zextByte, BitVec.toNat_setWidth]
  omega

theorem zextKey_toNat (k : Key) : (zextKey k).toNat = k.toNat := by
  have := k.isLt
  simp only [zextKey, BitVec.toNat_setWidth]
  omega

@[simp] theorem bcdDigits_length (b : Byte) : (bcdDigits b).length = 3 := rfl

/-- The latched key is `b` iff a key of that value is latched (45_timers_keys.md R175). -/
theorem State.keyIs_iff (s : State) (b : Byte) :
    s.keyIs b = true ↔ ∃ k, s.key = some k ∧ k.toNat = b.toNat := by
  unfold State.keyIs
  cases h : s.key with
  | none => simp
  | some k =>
    simp only [beq_iff_eq, Option.some.injEq, exists_eq_left']
    rw [← zextKey_toNat k]
    exact BitVec.toNat_inj.symm

end Sys2Proof.Machine
end

