-- ==== Sys2Proof/Laws/PerInstr.lean ====
section
/-! SUPPORT. Statements about every instruction, proved one constructor at a time: the word of an
instruction lies in its row of the opcode map (30_encoding.md R66: `w & mask = match`). -/

namespace Sys2Proof

/-! ### The operand fields lie outside the masks of their rows -/

theorem packNNN_mask (nnn : Addr) : packNNN nnn &&& 0xF000#16 = 0#16 := by
  apply BitVec.eq_of_getLsbD_eq
  intro j hj
  simp only [packNNN, BitVec.getLsbD_and, BitVec.getLsbD_append]
  interval_cases j <;> simp

theorem packXKK_mask (x : Reg) (kk : Byte) : packXKK x kk &&& 0xF000#16 = 0#16 := by
  apply BitVec.eq_of_getLsbD_eq
  intro j hj
  simp only [packXKK, BitVec.getLsbD_and, BitVec.getLsbD_append]
  interval_cases j <;> simp

theorem packXYN_mask (x y : Reg) (n : Nibble) : packXYN x y n &&& 0xF000#16 = 0#16 := by
  apply BitVec.eq_of_getLsbD_eq
  intro j hj
  simp only [packXYN, BitVec.getLsbD_and, BitVec.getLsbD_append]
  interval_cases j <;> simp

theorem packXY_mask (x y : Reg) : packXYN x y 0#4 &&& 0xF00F#16 = 0#16 := by
  apply BitVec.eq_of_getLsbD_eq
  intro j hj
  simp only [packXYN, BitVec.getLsbD_and, BitVec.getLsbD_append]
  interval_cases j <;> simp

theorem packX_mask (x : Reg) : packXYN x 0 0#4 &&& 0xF0FF#16 = 0#16 := by
  apply BitVec.eq_of_getLsbD_eq
  intro j hj
  simp only [packXYN, regBits, BitVec.getLsbD_and, BitVec.getLsbD_append]
  interval_cases j <;> simp

/-- Fixed bits inside a mask, operand bits outside it. -/
theorem masked_word {p o m : Word} (hp : p &&& m = p) (ho : o &&& m = 0#16) :
    (p ||| o) &&& m = p := by
  have : (p ||| o) &&& m = p &&& m ||| o &&& m := by
    apply BitVec.eq_of_getLsbD_eq
    intro j _
    simp [Bool.and_or_distrib_right]
  rw [this, hp, ho, BitVec.or_zero]

end Sys2Proof

/-- The encoded word, masked, is the row's pattern. -/
def Sys2Proof.Laws.InItsRow.Statement (i : Sys2Proof.Instr) : Prop :=
  Sys2Proof.encode i &&& i.row.mask = i.row.pattern

theorem Sys2Proof.Laws.InItsRow.endSentinel :
    Sys2Proof.Laws.InItsRow.Statement .endSentinel :=
  rfl

theorem Sys2Proof.Laws.InItsRow.cls :
    Sys2Proof.Laws.InItsRow.Statement .cls :=
  rfl

theorem Sys2Proof.Laws.InItsRow.ret :
    Sys2Proof.Laws.InItsRow.Statement .ret :=
  rfl

theorem Sys2Proof.Laws.InItsRow.sys (nnn : Sys2Proof.Addr) :
    Sys2Proof.Laws.InItsRow.Statement (.sys nnn) :=
  Sys2Proof.masked_word (p := 0x0000#16) (o := Sys2Proof.packNNN nnn) (m := 0xF000#16)
    rfl (Sys2Proof.packNNN_mask nnn)

theorem Sys2Proof.Laws.InItsRow.jp (nnn : Sys2Proof.Addr) :
    Sys2Proof.Laws.InItsRow.Statement (.jp nnn) :=
  Sys2Proof.masked_word (p := 0x1000#16) (o := Sys2Proof.packNNN nnn) (m := 0xF000#16)
    rfl (Sys2Proof.packNNN_mask nnn)

theorem Sys2Proof.Laws.InItsRow.call (nnn : Sys2Proof.Addr) :
    Sys2Proof.Laws.InItsRow.Statement (.call nnn) :=
  Sys2Proof.masked_word (p := 0x2000#16) (o := Sys2Proof.packNNN nnn) (m := 0xF000#16)
    rfl (Sys2Proof.packNNN_mask nnn)

theorem Sys2Proof.Laws.InItsRow.seImm (x : Sys2Proof.Reg) (kk : Sys2Proof.Byte) :
    Sys2Proof.Laws.InItsRow.Statement (.seImm x kk) :=
  Sys2Proof.masked_word (p := 0x3000#16) (o := Sys2Proof.packXKK x kk) (m := 0xF000#16)
    rfl (Sys2Proof.packXKK_mask x kk)

theorem Sys2Proof.Laws.InItsRow.sneImm (x : Sys2Proof.Reg) (kk : Sys2Proof.Byte) :
    Sys2Proof.Laws.InItsRow.Statement (.sneImm x kk) :=
  Sys2Proof.masked_word (p := 0x4000#16) (o := Sys2Proof.packXKK x kk) (m := 0xF000#16)
    rfl (Sys2Proof.packXKK_mask x kk)

theorem Sys2Proof.Laws.InItsRow.seReg (x : Sys2Proof.Reg) (y : Sys2Proof.Reg) :
    Sys2Proof.Laws.InItsRow.Statement (.seReg x y) :=
  Sys2Proof.masked_word (p := 0x5000#16) (o := Sys2Proof.packXYN x y 0#4) (m := 0xF00F#16)
    rfl (Sys2Proof.packXY_mask x y)

theorem Sys2Proof.Laws.InItsRow.ldImm (x : Sys2Proof.Reg) (kk : Sys2Proof.Byte) :
    Sys2Proof.Laws.InItsRow.Statement (.ldImm x kk) :=
  Sys2Proof.masked_word (p := 0x6000#16) (o := Sys2Proof.packXKK x kk) (m := 0xF000#16)
    rfl (Sys2Proof.packXKK_mask x kk)

theorem Sys2Proof.Laws.InItsRow.addImm (x : Sys2Proof.Reg) (kk : Sys2Proof.Byte) :
    Sys2Proof.Laws.InItsRow.Statement (.addImm x kk) :=
  Sys2Proof.masked_word (p := 0x7000#16) (o := Sys2Proof.packXKK x kk) (m := 0xF000#16)
    rfl (Sys2Proof.packXKK_mask x kk)

theorem Sys2Proof.Laws.InItsRow.ldReg (x : Sys2Proof.Reg) (y : Sys2Proof.Reg) :
    Sys2Proof.Laws.InItsRow.Statement (.ldReg x y) :=
  Sys2Proof.masked_word (p := 0x8000#16) (o := Sys2Proof.packXYN x y 0#4) (m := 0xF00F#16)
    rfl (Sys2Proof.packXY_mask x y)

theorem Sys2Proof.Laws.InItsRow.or (x : Sys2Proof.Reg) (y : Sys2Proof.Reg) :
    Sys2Proof.Laws.InItsRow.Statement (.or x y) :=
  Sys2Proof.masked_word (p := 0x8001#16) (o := Sys2Proof.packXYN x y 0#4) (m := 0xF00F#16)
    rfl (Sys2Proof.packXY_mask x y)

theorem Sys2Proof.Laws.InItsRow.and (x : Sys2Proof.Reg) (y : Sys2Proof.Reg) :
    Sys2Proof.Laws.InItsRow.Statement (.and x y) :=
  Sys2Proof.masked_word (p := 0x8002#16) (o := Sys2Proof.packXYN x y 0#4) (m := 0xF00F#16)
    rfl (Sys2Proof.packXY_mask x y)

theorem Sys2Proof.Laws.InItsRow.xor (x : Sys2Proof.Reg) (y : Sys2Proof.Reg) :
    Sys2Proof.Laws.InItsRow.Statement (.xor x y) :=
  Sys2Proof.masked_word (p := 0x8003#16) (o := Sys2Proof.packXYN x y 0#4) (m := 0xF00F#16)
    rfl (Sys2Proof.packXY_mask x y)

theorem Sys2Proof.Laws.InItsRow.addReg (x : Sys2Proof.Reg) (y : Sys2Proof.Reg) :
    Sys2Proof.Laws.InItsRow.Statement (.addReg x y) :=
  Sys2Proof.masked_word (p := 0x8004#16) (o := Sys2Proof.packXYN x y 0#4) (m := 0xF00F#16)
    rfl (Sys2Proof.packXY_mask x y)

theorem Sys2Proof.Laws.InItsRow.sub (x : Sys2Proof.Reg) (y : Sys2Proof.Reg) :
    Sys2Proof.Laws.InItsRow.Statement (.sub x y) :=
  Sys2Proof.masked_word (p := 0x8005#16) (o := Sys2Proof.packXYN x y 0#4) (m := 0xF00F#16)
    rfl (Sys2Proof.packXY_mask x y)

theorem Sys2Proof.Laws.InItsRow.shr (x : Sys2Proof.Reg) (y : Sys2Proof.Reg) :
    Sys2Proof.Laws.InItsRow.Statement (.shr x y) :=
  Sys2Proof.masked_word (p := 0x8006#16) (o := Sys2Proof.packXYN x y 0#4) (m := 0xF00F#16)
    rfl (Sys2Proof.packXY_mask x y)

theorem Sys2Proof.Laws.InItsRow.subn (x : Sys2Proof.Reg) (y : Sys2Proof.Reg) :
    Sys2Proof.Laws.InItsRow.Statement (.subn x y) :=
  Sys2Proof.masked_word (p := 0x8007#16) (o := Sys2Proof.packXYN x y 0#4) (m := 0xF00F#16)
    rfl (Sys2Proof.packXY_mask x y)

theorem Sys2Proof.Laws.InItsRow.shl (x : Sys2Proof.Reg) (y : Sys2Proof.Reg) :
    Sys2Proof.Laws.InItsRow.Statement (.shl x y) :=
  Sys2Proof.masked_word (p := 0x800E#16) (o := Sys2Proof.packXYN x y 0#4) (m := 0xF00F#16)
    rfl (Sys2Proof.packXY_mask x y)

theorem Sys2Proof.Laws.InItsRow.sneReg (x : Sys2Proof.Reg) (y : Sys2Proof.Reg) :
    Sys2Proof.Laws.InItsRow.Statement (.sneReg x y) :=
  Sys2Proof.masked_word (p := 0x9000#16) (o := Sys2Proof.packXYN x y 0#4) (m := 0xF00F#16)
    rfl (Sys2Proof.packXY_mask x y)

theorem Sys2Proof.Laws.InItsRow.ldI (nnn : Sys2Proof.Addr) :
    Sys2Proof.Laws.InItsRow.Statement (.ldI nnn) :=
  Sys2Proof.masked_word (p := 0xA000#16) (o := Sys2Proof.packNNN nnn) (m := 0xF000#16)
    rfl (Sys2Proof.packNNN_mask nnn)

theorem Sys2Proof.Laws.InItsRow.jpV0 (nnn : Sys2Proof.Addr) :
    Sys2Proof.Laws.InItsRow.Statement (.jpV0 nnn) :=
  Sys2Proof.masked_word (p := 0xB000#16) (o := Sys2Proof.packNNN nnn) (m := 0xF000#16)
    rfl (Sys2Proof.packNNN_mask nnn)

theorem Sys2Proof.Laws.InItsRow.rnd (x : Sys2Proof.Reg) (kk : Sys2Proof.Byte) :
    Sys2Proof.Laws.InItsRow.Statement (.rnd x kk) :=
  Sys2Proof.masked_word (p := 0xC000#16) (o := Sys2Proof.packXKK x kk) (m := 0xF000#16)
    rfl (Sys2Proof.packXKK_mask x kk)

theorem Sys2Proof.Laws.InItsRow.drw (x : Sys2Proof.Reg) (y : Sys2Proof.Reg) (n : Sys2Proof.Nibble) :
    Sys2Proof.Laws.InItsRow.Statement (.drw x y n) :=
  Sys2Proof.masked_word (p := 0xD000#16) (o := Sys2Proof.packXYN x y n) (m := 0xF000#16)
    rfl (Sys2Proof.packXYN_mask x y n)

theorem Sys2Proof.Laws.InItsRow.skp (x : Sys2Proof.Reg) :
    Sys2Proof.Laws.InItsRow.Statement (.skp x) :=
  Sys2Proof.masked_word (p := 0xE09E#16) (o := Sys2Proof.packXYN x 0 0#4) (m := 0xF0FF#16)
    rfl (Sys2Proof.packX_mask x)

theorem Sys2Proof.Laws.InItsRow.sknp (x : Sys2Proof.Reg) :
    Sys2Proof.Laws.InItsRow.Statement (.sknp x) :=
  Sys2Proof.masked_word (p := 0xE0A1#16) (o := Sys2Proof.packXYN x 0 0#4) (m := 0xF0FF#16)
    rfl (Sys2Proof.packX_mask x)

theorem Sys2Proof.Laws.InItsRow.ldVxDT (x : Sys2Proof.Reg) :
    Sys2Proof.Laws.InItsRow.Statement (.ldVxDT x) :=
  Sys2Proof.masked_word (p := 0xF007#16) (o := Sys2Proof.packXYN x 0 0#4) (m := 0xF0FF#16)
    rfl (Sys2Proof.packX_mask x)

theorem Sys2Proof.Laws.InItsRow.ldVxK (x : Sys2Proof.Reg) :
    Sys2Proof.Laws.InItsRow.Statement (.ldVxK x) :=
  Sys2Proof.masked_word (p := 0xF00A#16) (o := Sys2Proof.packXYN x 0 0#4) (m := 0xF0FF#16)
    rfl (Sys2Proof.packX_mask x)

theorem Sys2Proof.Laws.InItsRow.ldDTVx (x : Sys2Proof.Reg) :
    Sys2Proof.Laws.InItsRow.Statement (.ldDTVx x) :=
  Sys2Proof.masked_word (p := 0xF015#16) (o := Sys2Proof.packXYN x 0 0#4) (m := 0xF0FF#16)
    rfl (Sys2Proof.packX_mask x)

theorem Sys2Proof.Laws.InItsRow.ldSTVx (x : Sys2Proof.Reg) :
    Sys2Proof.Laws.InItsRow.Statement (.ldSTVx x) :=
  Sys2Proof.masked_word (p := 0xF018#16) (o := Sys2Proof.packXYN x 0 0#4) (m := 0xF0FF#16)
    rfl (Sys2Proof.packX_mask x)

theorem Sys2Proof.Laws.InItsRow.addIVx (x : Sys2Proof.Reg) :
    Sys2Proof.Laws.InItsRow.Statement (.addIVx x) :=
  Sys2Proof.masked_word (p := 0xF01E#16) (o := Sys2Proof.packXYN x 0 0#4) (m := 0xF0FF#16)
    rfl (Sys2Proof.packX_mask x)

theorem Sys2Proof.Laws.InItsRow.ldFVx (x : Sys2Proof.Reg) :
    Sys2Proof.Laws.InItsRow.Statement (.ldFVx x) :=
  Sys2Proof.masked_word (p := 0xF029#16) (o := Sys2Proof.packXYN x 0 0#4) (m := 0xF0FF#16)
    rfl (Sys2Proof.packX_mask x)

theorem Sys2Proof.Laws.InItsRow.ldBVx (x : Sys2Proof.Reg) :
    Sys2Proof.Laws.InItsRow.Statement (.ldBVx x) :=
  Sys2Proof.masked_word (p := 0xF033#16) (o := Sys2Proof.packXYN x 0 0#4) (m := 0xF0FF#16)
    rfl (Sys2Proof.packX_mask x)

theorem Sys2Proof.Laws.InItsRow.ldMemVx (x : Sys2Proof.Reg) :
    Sys2Proof.Laws.InItsRow.Statement (.ldMemVx x) :=
  Sys2Proof.masked_word (p := 0xF055#16) (o := Sys2Proof.packXYN x 0 0#4) (m := 0xF0FF#16)
    rfl (Sys2Proof.packX_mask x)

theorem Sys2Proof.Laws.InItsRow.ldVxMem (x : Sys2Proof.Reg) :
    Sys2Proof.Laws.InItsRow.Statement (.ldVxMem x) :=
  Sys2Proof.masked_word (p := 0xF065#16) (o := Sys2Proof.packXYN x 0 0#4) (m := 0xF0FF#16)
    rfl (Sys2Proof.packX_mask x)
end

