-- ==== Sys2Proof/Laws/Step.lean ====
section
/-! SUPPORT. What an execute and a step can do, said once: an execute halts or goes on, and a step is
a running core's execute followed by the count of the cycle. -/

namespace Sys2Proof.Machine

open Sys2Proof.Safety

/-! ### One execute -/

/-- Going on: the run state is kept, and memory keeps its canonical form. -/
def GoesOn (s t : State) : Prop := KeepsRun s t ∧ (s.mem.wf = true → t.mem.wf = true)

theorem GoesOn.of_eq {s t : State} (h : KeepsRun s t) (hm : t.mem = s.mem) : GoesOn s t :=
  ⟨h, fun hw => by rw [hm]; exact hw⟩

/-- What one instruction can do (40_execution_cycle.md R84): it halts with a cause and writes nothing
else, or it goes on. It always answers a next state. -/
theorem exec_cases (i : Instr) (s : State) :
    (∃ c, c ≠ Cause.none ∧ exec i s = .next (s.raiseHalt c)) ∨
      ∃ t, exec i s = .next t ∧ GoesOn s t := by
  cases i with
  | endSentinel => exact .inl ⟨.endSentinel, by decide, rfl⟩
  | sys nnn => exact .inl ⟨.unsupportedSyscall, by decide, rfl⟩
  | ret =>
    by_cases h : s.sp.val = 0
    · exact .inl ⟨.stackUnderflow, by decide, by simp [exec, execRet, h]⟩
    · right
      simp only [exec, execRet, dif_neg h]
      exact ⟨_, rfl, .of_eq ⟨rfl, rfl, rfl, rfl, rfl, rfl, rfl, rfl⟩ rfl⟩
  | call nnn =>
    by_cases h : s.sp.val < 16
    · right
      simp only [exec, execCall, dif_pos h]
      exact ⟨_, rfl, .of_eq ⟨rfl, rfl, rfl, rfl, rfl, rfl, rfl, rfl⟩ rfl⟩
    · exact .inl ⟨.stackOverflow, by decide, by simp [exec, execCall, h]⟩
  | ldVxK x =>
    right
    cases h : s.key with
    | none =>
      simp only [exec, execLdVxK, h]
      exact ⟨_, rfl, .of_eq ⟨rfl, rfl, rfl, rfl, rfl, rfl, rfl, rfl⟩ rfl⟩
    | some k =>
      simp only [exec, execLdVxK, h]
      exact ⟨_, rfl, .of_eq ⟨rfl, rfl, rfl, rfl, rfl, rfl, rfl, rfl⟩ rfl⟩
  | ldVxMem x =>
    right
    obtain ⟨v, hv⟩ := State.loadRegs_frame s s.blockBase (x.val + 1)
    simp only [exec, execLdVxMem, hv]
    exact ⟨_, rfl, .of_eq ⟨rfl, rfl, rfl, rfl, rfl, rfl, rfl, rfl⟩ rfl⟩
  | ldBVx x =>
    exact .inr ⟨_, rfl, ⟨rfl, rfl, rfl, rfl, rfl, rfl, rfl, rfl⟩, Memory.wf_writeBytes _ _⟩
  | ldMemVx x =>
    exact .inr ⟨_, rfl, ⟨rfl, rfl, rfl, rfl, rfl, rfl, rfl, rfl⟩, Memory.wf_writeBytes _ _⟩
  | _ => exact .inr ⟨_, rfl, .of_eq ⟨rfl, rfl, rfl, rfl, rfl, rfl, rfl, rfl⟩ rfl⟩

/-! ### The count of the cycle -/

theorem State.countCycle_inside (t : State) {cpf : Nat} (h : t.cyc + 1 ≠ cpf) :
    t.countCycle cpf = { t with cyc := t.cyc + 1 } := by
  unfold State.countCycle; rw [if_neg h]

theorem State.countCycle_boundary (t : State) {cpf : Nat} (h : t.cyc + 1 = cpf) :
    t.countCycle cpf = t.frameBoundary := by
  unfold State.countCycle; rw [if_pos h]; rfl

@[simp] theorem State.countCycle_mem (t : State) (cpf : Nat) : (t.countCycle cpf).mem = t.mem := by
  unfold State.countCycle; split <;> rfl
@[simp] theorem State.countCycle_v (t : State) (cpf : Nat) : (t.countCycle cpf).v = t.v := by
  unfold State.countCycle; split <;> rfl
@[simp] theorem State.countCycle_i (t : State) (cpf : Nat) : (t.countCycle cpf).i = t.i := by
  unfold State.countCycle; split <;> rfl
@[simp] theorem State.countCycle_pc (t : State) (cpf : Nat) : (t.countCycle cpf).pc = t.pc := by
  unfold State.countCycle; split <;> rfl
@[simp] theorem State.countCycle_stack (t : State) (cpf : Nat) :
    (t.countCycle cpf).stack = t.stack := by
  unfold State.countCycle; split <;> rfl
@[simp] theorem State.countCycle_sp (t : State) (cpf : Nat) : (t.countCycle cpf).sp = t.sp := by
  unfold State.countCycle; split <;> rfl
@[simp] theorem State.countCycle_fb (t : State) (cpf : Nat) : (t.countCycle cpf).fb = t.fb := by
  unfold State.countCycle; split <;> rfl
@[simp] theorem State.countCycle_halted (t : State) (cpf : Nat) :
    (t.countCycle cpf).halted = t.halted := by
  unfold State.countCycle; split <;> rfl
@[simp] theorem State.countCycle_cause (t : State) (cpf : Nat) :
    (t.countCycle cpf).cause = t.cause := by
  unfold State.countCycle; split <;> rfl
@[simp] theorem State.countCycle_rndIn (t : State) (cpf : Nat) :
    (t.countCycle cpf).rndIn = t.rndIn := by
  unfold State.countCycle; split <;> rfl
@[simp] theorem State.countCycle_rndCount (t : State) (cpf : Nat) :
    (t.countCycle cpf).rndCount = t.rndCount := by
  unfold State.countCycle; split <;> rfl

/-! ### One step -/

theorem decodeBytes_pair (hi lo : Byte) :
    decodeBytes [hi, lo] = (decodeWord (hi ++ lo)).map (fun i => (i, [])) := by
  simp only [decodeBytes]
  cases decodeWord (hi ++ lo) <;> rfl

/-- The bytes fetched decode as the fetched word does. -/
theorem decodeBytes_fetchBytes (s : State) :
    decodeBytes s.fetchBytes = (decodeWord s.fetchWord).map (fun i => (i, [])) :=
  decodeBytes_pair _ _

/-- A step of a running core whose fetched word is an instruction. -/
theorem stepAt_of_decode {cpf : Nat} {s : State} {i : Instr} (hr : Running s)
    (hd : decodeWord s.fetchWord = .ok i) : stepAt cpf s = finishCycle cpf (exec i s) := by
  simp only [stepAt, hr.1, hr.2, decodeBytes_fetchBytes, hd, Except.map]
  rfl

/-- A step of a running core whose fetched word is Illegal. -/
theorem stepAt_of_illegal {cpf : Nat} {s : State} {e : DecodeError} (hr : Running s)
    (hd : decodeWord s.fetchWord = .error e) :
    stepAt cpf s = .next (s.raiseHalt .illegalOpcode) := by
  simp only [stepAt, hr.1, hr.2, decodeBytes_fetchBytes, hd, Except.map]
  rfl

/-- What one step can do: the core was running, and either it halts, with nothing but `halted` and
`cause` written, or the fetched word is an instruction that goes on and the cycle is counted. -/
theorem stepAt_cases {cpf : Nat} {s t : State} (h : stepAt cpf s = .next t) :
    Running s ∧
      ((∃ c, c ≠ Cause.none ∧ t = s.raiseHalt c) ∨
        ∃ i u, decodeWord s.fetchWord = .ok i ∧ exec i s = .next u ∧ GoesOn s u ∧
          t = u.countCycle cpf) := by
  have hr : Running s := by
    unfold stepAt at h
    by_cases hh : s.halted = true
    · simp [hh] at h
    · by_cases hc : s.closed = true
      · simp [hh, hc] at h
      · exact ⟨by simpa using hh, by simpa using hc⟩
  refine ⟨hr, ?_⟩
  cases hd : decodeWord s.fetchWord with
  | error e =>
    rw [stepAt_of_illegal hr hd] at h
    injection h with h
    exact .inl ⟨.illegalOpcode, by decide, h.symm⟩
  | ok i =>
    rw [stepAt_of_decode hr hd] at h
    rcases exec_cases i s with ⟨c, hc, he⟩ | ⟨u, he, hg⟩
    · rw [he] at h
      simp only [finishCycle, State.raiseHalt_halted, if_true] at h
      injection h with h
      exact .inl ⟨c, hc, h.symm⟩
    · rw [he] at h
      have hu : u.halted = false := by rw [hg.1.1]; exact hr.1
      simp only [finishCycle, hu] at h
      injection h with h
      exact .inr ⟨i, u, rfl, he, hg, h.symm⟩

end Sys2Proof.Machine
end

