-- ==== Sys2Proof/Tests/Slice0.lean ====
section
/-! SUPPORT. The model's own tests. The expected results are the vectors of 95_test_vectors.md
(named V-...) or a rule of the spec, and none comes from a run. After them, for every statement with
hypotheses, a named state and operands that meet them all (`witness_<statement>`). -/

namespace Sys2Proof.Tests

open Sys2Proof.Machine Sys2Proof.Safety

/-! ### Helpers -/

/-- Reset, changed by `f`, with the instruction `w` where the next fetch reads. -/
def st (w : Nat) (f : State → State := id) : State := (f State.reset).withFetchWord 16 w

/-- Some registers set. -/
def regs (l : List (Reg × Byte)) (s : State) : State := l.foldl (fun s p => s.setV p.1 p.2) s

/-- Some bytes of memory set. -/
def mem (a : Nat) (l : List Byte) (s : State) : State := s.storeBytes a l

/-- Some cells of the framebuffer set, each (column, row). -/
def lit (l : List (Nat × Nat)) : Framebuffer :=
  l.foldl (fun fb p => fb.setCell p.2 p.1 true) Framebuffer.blank

/-- The cells of a framebuffer at each (column, row). -/
def cells (fb : Framebuffer) (l : List (Nat × Nat)) : List Bool := l.map fun p => fb.cell p.2 p.1

/-- What `f` reads from the state after one step, if there is one. -/
def after {α : Type} (s : State) (f : State → α) : Option α :=
  match step s with
  | .next t => some (f t)
  | .fault _ => none
  | .refused _ => none

/-- The cause of a halt, with nothing else to see: `halted`, the code, PC, SP and the cycle count. -/
def haltView (t : State) : Bool × BitVec 3 × Word × Nat × Nat :=
  (t.halted, t.cause.code, t.pc, t.sp.val, t.cyc)

/-! ### Well-formedness -/

theorem test_wf_refuses_sys_end : (Instr.sys 0x000#12).wf = false := rfl
theorem test_wf_refuses_sys_cls : (Instr.sys 0x0E0#12).wf = false := rfl
theorem test_wf_refuses_sys_ret : (Instr.sys 0x0EE#12).wf = false := rfl
theorem test_wf_accepts_sys : (Instr.sys 0x001#12).wf = true := rfl

/-! ### Decoding: a word of each row, written out from the opcode map (95_test_vectors.md 2.1) -/

theorem test_decode_end : decodeWord 0x0000#16 = .ok .endSentinel := rfl
theorem test_decode_cls : decodeWord 0x00E0#16 = .ok .cls := rfl
theorem test_decode_ret : decodeWord 0x00EE#16 = .ok .ret := rfl
theorem test_decode_sys : decodeWord 0x01E0#16 = .ok (.sys 0x1E0#12) := rfl
theorem test_decode_jp : decodeWord 0x1ABC#16 = .ok (.jp 0xABC#12) := rfl
theorem test_decode_call : decodeWord 0x2FFF#16 = .ok (.call 0xFFF#12) := rfl
theorem test_decode_se_imm : decodeWord 0x3A7F#16 = .ok (.seImm 0xA 0x7F#8) := rfl
theorem test_decode_sne_imm : decodeWord 0x4F00#16 = .ok (.sneImm 0xF 0x00#8) := rfl
theorem test_decode_se_reg : decodeWord 0x5120#16 = .ok (.seReg 1 2) := rfl
theorem test_decode_ld_imm : decodeWord 0x6C42#16 = .ok (.ldImm 0xC 0x42#8) := rfl
theorem test_decode_add_imm : decodeWord 0x70FF#16 = .ok (.addImm 0 0xFF#8) := rfl
theorem test_decode_ld_reg : decodeWord 0x8AB0#16 = .ok (.ldReg 0xA 0xB) := rfl
theorem test_decode_or : decodeWord 0x8AB1#16 = .ok (.or 0xA 0xB) := rfl
theorem test_decode_and : decodeWord 0x8AB2#16 = .ok (.and 0xA 0xB) := rfl
theorem test_decode_xor : decodeWord 0x8AB3#16 = .ok (.xor 0xA 0xB) := rfl
theorem test_decode_add_reg : decodeWord 0x8AB4#16 = .ok (.addReg 0xA 0xB) := rfl
theorem test_decode_sub : decodeWord 0x8AB5#16 = .ok (.sub 0xA 0xB) := rfl
theorem test_decode_shr : decodeWord 0x8AB6#16 = .ok (.shr 0xA 0xB) := rfl
theorem test_decode_subn : decodeWord 0x8AB7#16 = .ok (.subn 0xA 0xB) := rfl
theorem test_decode_shl : decodeWord 0x8ABE#16 = .ok (.shl 0xA 0xB) := rfl
theorem test_decode_sne_reg : decodeWord 0x9340#16 = .ok (.sneReg 3 4) := rfl
theorem test_decode_ld_i : decodeWord 0xA123#16 = .ok (.ldI 0x123#12) := rfl
theorem test_decode_jp_v0 : decodeWord 0xB400#16 = .ok (.jpV0 0x400#12) := rfl
theorem test_decode_rnd : decodeWord 0xC50F#16 = .ok (.rnd 5 0x0F#8) := rfl
theorem test_decode_drw : decodeWord 0xD125#16 = .ok (.drw 1 2 5#4) := rfl
theorem test_decode_skp : decodeWord 0xE39E#16 = .ok (.skp 3) := rfl
theorem test_decode_sknp : decodeWord 0xE3A1#16 = .ok (.sknp 3) := rfl
theorem test_decode_ld_vx_dt : decodeWord 0xF207#16 = .ok (.ldVxDT 2) := rfl
theorem test_decode_ld_vx_k : decodeWord 0xF20A#16 = .ok (.ldVxK 2) := rfl
theorem test_decode_ld_dt_vx : decodeWord 0xF215#16 = .ok (.ldDTVx 2) := rfl
theorem test_decode_ld_st_vx : decodeWord 0xF218#16 = .ok (.ldSTVx 2) := rfl
theorem test_decode_add_i_vx : decodeWord 0xF21E#16 = .ok (.addIVx 2) := rfl
theorem test_decode_ld_f_vx : decodeWord 0xF229#16 = .ok (.ldFVx 2) := rfl
theorem test_decode_ld_b_vx : decodeWord 0xF233#16 = .ok (.ldBVx 2) := rfl
theorem test_decode_ld_mem_vx : decodeWord 0xF255#16 = .ok (.ldMemVx 2) := rfl
theorem test_decode_ld_vx_mem : decodeWord 0xF265#16 = .ok (.ldVxMem 2) := rfl

/-! A word read bit by bit from the formats of 30_encoding.md R61: `op`, `x`, `y`, `n`. -/
theorem test_decode_bits_xyn :
    decodeWord (0b1101#4 ++ 0b0001#4 ++ 0b0010#4 ++ 0b0101#4) = .ok (.drw 1 2 5#4) := rfl
theorem test_decode_sys_is_not_ret : decodeWord 0x0FEE#16 = .ok (.sys 0xFEE#12) := rfl
theorem test_decode_illegal :
    ([0x5121#16, 0x934F#16, 0x8AB8#16, 0x8ABF#16, 0xE39F#16, 0xE300#16, 0xF200#16, 0xF275#16,
      0xF2FF#16].all fun w => decodeWord w == .error (.illegal w)) = true := by decide
theorem test_decode_bytes_rest :
    decodeBytes [0x12#8, 0x34#8, 0x56#8] = .ok (.jp 0x234#12, [0x56#8]) := rfl
theorem test_decode_one_byte : decodeBytes [0x12#8] = .error .truncated := rfl
theorem test_encode_drw : encode (.drw 1 2 5#4) = 0xD125#16 := rfl
theorem test_encode_shl_keeps_y : encode (.shl 0xA 0xB) = 0x8ABE#16 := rfl
theorem test_table_word : decodeTableWord 16 0x8AB6 = some (.shr 0xA 0xB) := rfl
theorem test_table_word_refused : decodeTableWord 16 0x5121 = none := rfl

/-! ### Reset (10_state.md R30; the default font, 70_reset_and_hazards.md R225) -/

theorem test_reset_font_and_entry :
    (State.reset.memRead 0x000, State.reset.memRead 0x04F, State.reset.memRead 0x050,
      State.reset.pc) = (0xF0#8, 0x80#8, 0x00#8, 0x0200#16) := by decide

/-! ### Fetch, halts, the end of a run (95_test_vectors.md 2.2) -/

/-- V-X2: an odd program counter. -/
theorem test_fetch_odd :
    after (st 0x6007 fun s => s.setPc 0x0201#16) (fun t => (t.getV 0, t.pc)) =
      some (0x07#8, 0x0203#16) := by decide
/-- V-X3: the second byte comes from address 0x000, PC is not reduced. -/
theorem test_fetch_wraps :
    after (mem 0xFFF [0x61#8] (State.reset.setPc 0x0FFF#16)) (fun t => (t.getV 1, t.pc)) =
      some (0xF0#8, 0x1001#16) := by decide
/-- V-X5: the empty image ends at once. -/
theorem test_end : after State.reset haltView = some (true, 3#3, 0x0200#16, 0, 0) := by decide
/-- V-X6. -/
theorem test_sys : after (st 0x0123 fun s => s.setPc 0x020A#16) haltView =
    some (true, 2#3, 0x020A#16, 0, 0) := by decide
/-- V-X7. -/
theorem test_illegal : after (st 0x5121 fun s => s.setPc 0x0300#16) haltView =
    some (true, 1#3, 0x0300#16, 0, 0) := by decide
/-- V-X9. -/
theorem test_halted_has_no_step :
    step { State.reset with halted := true, cause := .endSentinel } = .fault .haltedNoStep := rfl

/-! ### Control transfer (95_test_vectors.md 2.3) -/

/-- V-C1. -/
theorem test_jp :
    after (st 0x1204 fun s => s.setPc 0x020A#16)
      (fun t => t.pc) = some 0x0204#16 := by decide
/-- V-C4. -/
theorem test_jp_odd :
    after (st 0x1301)
      (fun t => t.pc) = some 0x0301#16 := by decide
/-- V-C9. -/
theorem test_call_last_entry :
    after (st 0x2300 fun s => { s with pc := 0x0400#16, sp := 15 })
      (fun t => (t.stack[15], t.sp, t.pc)) = some (0x0400#16, 16, 0x0300#16) := by decide
/-- V-C8. -/
theorem test_call_overflow :
    after (st 0x2300 fun s => { s with sp := 16 }) haltView =
      some (true, 4#3, 0x0200#16, 16, 0) := by decide
/-- V-C6. -/
theorem test_ret :
    after (st 0x00EE fun s => (s.pushAt 0 0x0204#16).setPc 0x0212#16)
      (fun t => (t.sp, t.pc, t.stack[0])) = some (0, 0x0206#16, 0x0204#16) := by decide
/-- V-C7. -/
theorem test_ret_underflow :
    after (st 0x00EE) haltView = some (true, 5#3, 0x0200#16, 0, 0) := by decide
/-- V-C11. -/
theorem test_se_imm_equal :
    after (st 0x3110 fun s => s.setV 1 0x10#8)
      (fun t => t.pc) = some 0x0204#16 := by decide
/-- V-C12. -/
theorem test_se_imm_differs :
    after (st 0x3110 fun s => s.setV 1 0x11#8)
      (fun t => t.pc) = some 0x0202#16 := by decide
/-- V-C13. -/
theorem test_sne_imm_equal :
    after (st 0x4110 fun s => s.setV 1 0x10#8)
      (fun t => t.pc) = some 0x0202#16 := by decide
/-- V-C14. -/
theorem test_sne_imm_differs :
    after (st 0x4110 fun s => s.setV 1 0x11#8)
      (fun t => t.pc) = some 0x0204#16 := by decide
/-- V-C15. -/
theorem test_se_reg_equal :
    after (st 0x5230 fun s => regs [(2, 7#8), (3, 7#8)] s)
      (fun t => t.pc) = some 0x0204#16 := by decide
/-- V-C16. -/
theorem test_se_reg_differs :
    after (st 0x5230 fun s => regs [(2, 7#8), (3, 8#8)] s)
      (fun t => t.pc) = some 0x0202#16 := by decide
/-- V-C18. -/
theorem test_sne_reg_differs :
    after (st 0x9230 fun s => regs [(2, 7#8), (3, 8#8)] s)
      (fun t => t.pc) = some 0x0204#16 := by decide
/-- V-C19. -/
theorem test_sne_reg_itself :
    after (st 0x9220 fun s => s)
      (fun t => t.pc) = some 0x0202#16 := by decide
/-- V-C20. -/
theorem test_jp_v0 :
    after (st 0xB300 fun s => s.setV 0 0x04#8)
      (fun t => t.pc) = some 0x0304#16 := by decide
/-- V-C21. -/
theorem test_jp_v0_not_masked :
    after (st 0xBFFF fun s => s.setV 0 0xFF#8)
      (fun t => t.pc) = some 0x10FE#16 := by decide
/-- V-C23. -/
theorem test_skip_wraps :
    after (st 0x3100 fun s => s.setPc 0xFFFE#16)
      (fun t => t.pc) = some 0x0002#16 := by decide

/-! ### Arithmetic and logic (95_test_vectors.md 2.4); VF before is 0xAA where it must stay -/

/-- V-A1. -/
theorem test_ld_imm :
    after (st 0x6A2B fun s => s.setV 15 0xAA#8)
      (fun t => (t.getV 0xA, t.getV 15, t.pc)) = some (0x2B#8, 0xAA#8, 0x0202#16) := by decide
/-- V-A3. -/
theorem test_add_imm :
    after (st 0x7105 fun s => regs [(1, 0xFE#8), (15, 0xAA#8)] s)
      (fun t => (t.getV 1, t.getV 15)) = some (0x03#8, 0xAA#8) := by decide
/-- V-A5. -/
theorem test_ld_reg :
    after (st 0x8120 fun s => s.setV 2 0x42#8)
      (fun t => (t.getV 1, t.getV 2)) = some (0x42#8, 0x42#8) := by decide
/-- V-A6. -/
theorem test_or :
    after (st 0x8121 fun s => regs [(1, 0xF0#8), (2, 0x0F#8), (15, 0xAA#8)] s)
      (fun t => (t.getV 1, t.getV 15)) = some (0xFF#8, 0xAA#8) := by decide
/-- V-A7. -/
theorem test_and :
    after (st 0x8122 fun s => regs [(1, 0xF3#8), (2, 0x3C#8), (15, 0xAA#8)] s)
      (fun t => (t.getV 1, t.getV 15)) = some (0x30#8, 0xAA#8) := by decide
/-- V-A8. -/
theorem test_xor :
    after (st 0x8123 fun s => regs [(1, 0xFF#8), (2, 0x0F#8), (15, 0xAA#8)] s)
      (fun t => (t.getV 1, t.getV 15)) = some (0xF0#8, 0xAA#8) := by decide
/-- V-A10. -/
theorem test_add_reg_carry :
    after (st 0x8124 fun s => regs [(1, 0xFF#8), (2, 0x01#8)] s)
      (fun t => (t.getV 1, t.getV 15)) = some (0x00#8, 0x01#8) := by decide
/-- V-A15. -/
theorem test_add_reg_vf_destination :
    after (st 0x8F14 fun s => regs [(15, 0x80#8), (1, 0x90#8)] s)
      (fun t => (t.getV 1, t.getV 15)) = some (0x90#8, 0x01#8) := by decide
/-- V-A18. -/
theorem test_sub_borrow :
    after (st 0x8125 fun s => regs [(1, 3#8), (2, 5#8), (15, 0xAA#8)] s)
      (fun t => (t.getV 1, t.getV 15)) = some (0xFE#8, 0x00#8) := by decide
/-- V-A19. -/
theorem test_sub_equal :
    after (st 0x8125 fun s => regs [(1, 7#8), (2, 7#8), (15, 0xAA#8)] s)
      (fun t => (t.getV 1, t.getV 15)) = some (0x00#8, 0x00#8) := by decide
/-- V-A27. -/
theorem test_shr_ignores_y :
    after (st 0x8126 fun s => regs [(1, 0x05#8), (2, 0xF0#8)] s)
      (fun t => (t.getV 1, t.getV 2, t.getV 15)) = some (0x02#8, 0xF0#8, 0x01#8) := by decide
/-- V-A28. -/
theorem test_shr_vf :
    after (st 0x8F06 fun s => s.setV 15 0x03#8)
      (fun t => t.getV 15) = some 0x01#8 := by decide
/-- V-A29. -/
theorem test_subn :
    after (st 0x8127 fun s => regs [(1, 3#8), (2, 5#8)] s)
      (fun t => (t.getV 1, t.getV 15)) = some (0x02#8, 0x01#8) := by decide
/-- V-A30. -/
theorem test_subn_borrow :
    after (st 0x8127 fun s => regs [(1, 5#8), (2, 3#8), (15, 0xAA#8)] s)
      (fun t => (t.getV 1, t.getV 15)) = some (0xFE#8, 0x00#8) := by decide
/-- V-A32. -/
theorem test_shl :
    after (st 0x810E fun s => s.setV 1 0x81#8)
      (fun t => (t.getV 1, t.getV 15)) = some (0x02#8, 0x01#8) := by decide
/-- V-A33. -/
theorem test_shl_no_carry :
    after (st 0x810E fun s => regs [(1, 0x40#8), (15, 0xAA#8)] s)
      (fun t => (t.getV 1, t.getV 15)) = some (0x80#8, 0x00#8) := by decide
/-- V-A36. -/
theorem test_rnd :
    after (st 0xC30F fun s => { s with rndIn := [0xB7#8] })
      (fun t => (t.getV 3, t.rndIn, t.rndCount)) = some (0x07#8, [], 1) := by decide
/-- V-A37. -/
theorem test_rnd_zero_mask_draws :
    after (st 0xC300 fun s => { s with rndIn := [0xB7#8] })
      (fun t => (t.getV 3, t.rndIn)) = some (0x00#8, []) := by decide

/-! ### Index and memory (95_test_vectors.md 2.5) -/

/-- V-M1. -/
theorem test_ld_i :
    after (st 0xA2F0)
      (fun t => (t.i, t.pc)) = some (0x02F0#16, 0x0202#16) := by decide
/-- V-M2. -/
theorem test_add_i :
    after (st 0xF21E fun s => { regs [(2, 5#8), (15, 0xAA#8)] s with i := 0x0FFE#16 })
      (fun t => (t.i, t.getV 15)) = some (0x1003#16, 0xAA#8) := by decide
/-- V-M3. -/
theorem test_add_i_wraps :
    after (st 0xF21E fun s => { regs [(2, 1#8), (15, 0xAA#8)] s with i := 0xFFFF#16 })
      (fun t => (t.i, t.getV 15)) = some (0x0000#16, 0xAA#8) := by decide
/-- V-M5. -/
theorem test_ld_f :
    after (st 0xF429 fun s => s.setV 4 0x0F#8)
      (fun t => t.i) = some 0x004B#16 := by decide
/-- V-M7. -/
theorem test_ld_f_no_mask :
    after (st 0xF429 fun s => s.setV 4 0xFF#8)
      (fun t => t.i) = some 0x04FB#16 := by decide
/-- V-M8. -/
theorem test_ld_b :
    after (st 0xF033 fun s => (s.setV 0 157#8).setI 0x0300#16)
      (fun t => (t.memRead 0x300, t.memRead 0x301, t.memRead 0x302, t.i)) =
      some (1#8, 5#8, 7#8, 0x0300#16) := by decide
/-- V-M10. -/
theorem test_ld_b_wraps :
    after (st 0xF033 fun s => (s.setV 0 123#8).setI 0x0FFF#16)
      (fun t => (t.memRead 0xFFF, t.memRead 0x000, t.memRead 0x001)) =
      some (1#8, 2#8, 3#8) := by decide
/-- V-M12, with x = 1. -/
theorem test_ld_mem_vx :
    after (st 0xF155 fun s =>
      mem 0x302 [0x77#8] ((regs [(0, 0x11#8), (1, 0x22#8), (2, 0x33#8)] s).setI 0x0300#16))
      (fun t => (t.memRead 0x300, t.memRead 0x301, t.memRead 0x302, t.i)) =
      some (0x11#8, 0x22#8, 0x77#8, 0x0300#16) := by decide
/-- V-M18: code is written. -/
theorem test_ld_mem_vx_next_fetch :
    after (st 0xF155 fun s => (regs [(0, 0x12#8), (1, 0x00#8)] s).setI 0x0202#16)
      (fun t => t.fetchWord) = some 0x1200#16 := by decide
/-- V-M15. -/
theorem test_ld_vx_mem :
    after (st 0xF265 fun s => (mem 0x300 [1#8, 5#8, 7#8, 9#8] (s.setV 3 0xEE#8)).setI 0x0300#16)
      (fun t => (t.getV 0, t.getV 1, t.getV 2, t.getV 3, t.i)) =
      some (1#8, 5#8, 7#8, 0xEE#8, 0x0300#16) := by decide
/-- V-M17: glyph 0 of the default font. -/
theorem test_ld_vx_mem_glyph :
    after (st 0xF465 fun s => s)
      (fun t => t.v.toList.take 5) = some [0xF0#8, 0x90#8, 0x90#8, 0x90#8, 0xF0#8] := by decide

/-! ### Display (95_test_vectors.md 2.6) -/

/-- V-D13. -/
theorem test_cls :
    after (st 0x00E0 fun s => { s.setV 15 0xAA#8 with fb := lit [(0, 0), (63, 31)] })
      (fun t => (cells t.fb [(0, 0), (63, 31), (1, 0)], t.getV 15)) =
      some ([false, false, false], 0xAA#8) := by decide
/-- V-D2: clipped at the right edge, no wrap-around. -/
theorem test_drw_clips :
    after (st 0xD125 fun s => regs [(1, 60#8), (2, 0#8)] s)
      (fun t => (cells t.fb
        [(60, 0), (63, 0), (60, 1), (61, 1), (63, 1), (63, 4), (60, 5), (0, 0), (0, 1)],
        t.getV 15)) =
      some ([true, true, true, false, true, true, false, false, false], 0#8) := by decide
/-- V-D4. -/
theorem test_drw_collides :
    after (st 0xD121 fun s => { (mem 0x300 [0xC0#8] s).setI 0x0300#16 with fb := lit [(1, 0)] })
      (fun t => (cells t.fb [(0, 0), (1, 0), (2, 0)], t.getV 15)) =
      some ([true, false, false], 1#8) := by decide

/-! ### Timers and keys (95_test_vectors.md 2.7) -/

/-- V-T1. -/
theorem test_ld_vx_dt :
    after (st 0xF507 fun s => s.setDT 0x2A#8)
      (fun t => (t.getV 5, t.dt)) = some (0x2A#8, 0x2A#8) := by decide
/-- V-T2. -/
theorem test_ld_dt_vx :
    after (st 0xF015 fun s => s.setV 0 0x3C#8)
      (fun t => (t.dt, t.st)) = some (0x3C#8, 0x00#8) := by decide
/-- V-T3. -/
theorem test_ld_st_vx :
    after (st 0xF318 fun s => s.setV 3 2#8)
      (fun t => (t.st, t.dt, t.soundOut)) = some (2#8, 0#8, true) := by decide
/-- V-T4. -/
theorem test_ld_st_vx_off :
    after (st 0xF318 fun s => s.setST 2#8)
      (fun t => (t.st, t.soundOut)) = some (0#8, false) := by decide
/-- V-K1. -/
theorem test_skp :
    after (st 0xE09E fun s => { s.setV 0 7#8 with key := some 7#4 })
      (fun t => t.pc) = some 0x0204#16 := by decide
/-- V-K5. -/
theorem test_skp_no_nibble_mask :
    after (st 0xE09E fun s => { s.setV 0 0x13#8 with key := some 3#4 })
      (fun t => t.pc) = some 0x0202#16 := by decide
/-- V-K6. -/
theorem test_sknp :
    after (st 0xE0A1 fun s => { s.setV 0 7#8 with key := some 7#4 })
      (fun t => t.pc) = some 0x0202#16 := by decide
/-- V-K7. -/
theorem test_sknp_no_key :
    after (st 0xE0A1 fun s => s.setV 0 7#8)
      (fun t => t.pc) = some 0x0204#16 := by decide
/-- V-K9. -/
theorem test_ld_vx_k_waits :
    after (st 0xF00A fun s => s.setV 0 0x55#8)
      (fun t => (t.getV 0, t.pc, t.cyc)) = some (0x55#8, 0x0200#16, 1) := by decide
/-- V-K11. -/
theorem test_ld_vx_k_key_zero :
    after (st 0xF00A fun s => { s.setV 0 0x55#8 with key := some 0#4 })
      (fun t => (t.getV 0, t.pc)) = some (0x00#8, 0x0202#16) := by decide

/-! ### The frame boundary (95_test_vectors.md 2.8) -/

/-- The last cycle of a tick comes, and the poll after it is known. -/
def lastCycle (p : Poll) (s : State) : State := { s with cyc := 11, polls := [p] }

/-- V-F4. -/
theorem test_boundary_counts_the_new_timer :
    after (st 0xF015 fun s => lastCycle ⟨some 7#4, false⟩ (s.setV 0 5#8))
      (fun t => (t.dt, t.cyc, t.key, t.frames)) = some (4#8, 0, some 7#4, 1) := by decide
/-- V-F2, V-F3, and the frame presented is the framebuffer (R93). -/
theorem test_boundary_timer_stops_at_zero :
    after (st 0x1200 fun s => lastCycle ⟨none, false⟩ { s with st := 1#8, fb := lit [(3, 2)] })
      (fun t => (t.dt, t.st, t.soundOut, t.fbOut.map fun fb => cells fb [(3, 2), (2, 3)])) =
      some (0#8, 0#8, false, some [true, false]) := by decide
/-- V-F6. -/
theorem test_boundary_closes :
    after (st 0x6001 fun s => lastCycle ⟨none, true⟩ s)
      (fun t => (t.getV 0, t.pc, t.closed, t.halted)) =
      some (1#8, 0x0202#16, true, false) := by decide
/-- V-F5. -/
theorem test_no_boundary_after_a_halt :
    after (st 0x0000 fun s => lastCycle ⟨none, true⟩ (s.setDT 9#8))
      (fun t => (t.dt, t.cyc, t.closed, t.fbOut.isNone)) = some (9#8, 11, false, true) := by decide

/-! ### Witnesses: a state and operands for every hypothesis of the statements -/

/-- Reset with a program of one word, JP 0x200. -/
def loaded : State := State.resetWith Config.font ⟨[0x12#8, 0x00#8], by decide⟩

theorem witness_ResetMemoryMap :
    ([0x000, 0x04F, 0x050, 0x1FF, 0x200, 0x201, 0x202, 0xFFF].map loaded.memRead) =
      [0xF0#8, 0x80#8, 0x00#8, 0x00#8, 0x12#8, 0x00#8, 0x00#8, 0x00#8] := by decide +kernel

theorem witness_ResetMeetsTheInvariant : (1 : Nat) ≤ 1 ∧ 1 ≤ Config.cyclesPerFrame := by decide

theorem witness_DecodeInvertsEncode :
    (Instr.sys 0x001#12).wf = true ∧ (Instr.drw 15 0 15#4).wf = true := ⟨rfl, rfl⟩

theorem witness_EncodeInvertsDecode : decodeWord 0xF265#16 = .ok (.ldVxMem 2) := rfl

/-- The word of CLS lies in the row of CLS, to which it decodes, and in that of SYS. -/
theorem witness_DecoderAgreesWithTheOpcodeMap :
    decodeWord 0x00E0#16 = .ok .cls ∧
      0x00E0#16 &&& Instr.cls.row.mask = Instr.cls.row.pattern ∧
      0x00E0#16 &&& (Instr.sys 0).row.mask = (Instr.sys 0).row.pattern := ⟨rfl, rfl, rfl⟩

theorem witness_IllegalWordsAreTheListedOnes :
    (fieldOp 0x5121#16 = 0x5#4 ∧ fieldN 0x5121#16 ≠ 0x0#4) ∧
      (fieldOp 0x8ABF#16 = 0x8#4 ∧ fieldN 0x8ABF#16 = 0xF#4) ∧
      (fieldOp 0x9341#16 = 0x9#4 ∧ fieldN 0x9341#16 ≠ 0x0#4) ∧
      (fieldOp 0xE3A0#16 = 0xE#4 ∧ fieldKK 0xE3A0#16 ∉ [0x9E#8, 0xA1#8]) ∧
      (fieldOp 0xF2FF#16 = 0xF#4 ∧ fieldKK 0xF2FF#16 = 0xFF#8) ∧
      decodeWord 0xF2FF#16 = .error (.illegal 0xF2FF#16) := by decide

/-- One word in one row, and the word of RET in its own row and in that of SYS. -/
theorem witness_OpcodeRowsOverlapOnlyAtSys :
    0x1ABC#16 &&& (Instr.jp 0).row.mask = (Instr.jp 0).row.pattern ∧
      0x00EE#16 &&& Instr.ret.row.mask = Instr.ret.row.pattern ∧
      0x00EE#16 &&& (Instr.sys 0).row.mask = (Instr.sys 0).row.pattern := ⟨rfl, rfl, rfl⟩

/-- An instruction that goes on and one that halts. -/
theorem witness_StepRunsTheDecodedInstruction :
    (Running (st 0x6001) ∧ decodeBytes (st 0x6001).fetchBytes = .ok (.ldImm 0 1#8, [])) ∧
      (Running State.reset ∧ decodeBytes State.reset.fetchBytes = .ok (.endSentinel, [])) :=
  ⟨⟨⟨rfl, rfl⟩, by decide⟩, ⟨rfl, rfl⟩, by decide⟩

theorem witness_CycleInsideATick :
    Running (st 0x6001) ∧ decodeWord (st 0x6001).fetchWord = .ok (.ldImm 0 1#8) ∧
      ∃ t, exec (.ldImm 0 1#8) (st 0x6001) = .next t ∧ t.halted = false ∧
        (st 0x6001).cyc + 1 ≠ 12 :=
  ⟨⟨rfl, rfl⟩, by decide, _, rfl, rfl, by decide⟩

/-- The last cycle of a tick, with a known poll and with none. -/
def lastKnown : State := st 0x6001 (lastCycle ⟨some 7#4, true⟩)
def lastFree : State := st 0x6001 fun s => { s with cyc := 11 }

theorem witness_FrameBoundaryEffects :
    (Running lastKnown ∧ decodeWord lastKnown.fetchWord = .ok (.ldImm 0 1#8) ∧
      (∃ t, exec (.ldImm 0 1#8) lastKnown = .next t ∧ t.halted = false) ∧
      lastKnown.cyc + 1 = 12 ∧ lastKnown.polls = [⟨some 7#4, true⟩]) ∧
    (Running lastFree ∧ decodeWord lastFree.fetchWord = .ok (.ldImm 0 1#8) ∧
      (∃ t, exec (.ldImm 0 1#8) lastFree = .next t ∧ t.halted = false) ∧
      lastFree.cyc + 1 = 12 ∧ lastFree.polls = []) :=
  ⟨⟨⟨rfl, rfl⟩, by decide, ⟨_, rfl, rfl⟩, rfl, rfl⟩,
    ⟨rfl, rfl⟩, by decide, ⟨_, rfl, rfl⟩, rfl, rfl⟩

theorem witness_IllegalWordHaltsTheCore :
    Running (st 0x5121) ∧
      decodeWord (st 0x5121).fetchWord = .error (.illegal (st 0x5121).fetchWord) :=
  ⟨⟨rfl, rfl⟩, by decide⟩

def ended : State := { State.reset with halted := true, cause := .endSentinel }
def closedCore : State := { State.reset with closed := true }

theorem witness_EndedCoreHasNoStep : ended.halted = true ∧ closedCore.closed = true := ⟨rfl, rfl⟩

theorem witness_RunningCoreAlwaysSteps : Running State.reset := ⟨rfl, rfl⟩

theorem witness_HaltIsPrecise : ∃ t, stepAt 12 State.reset = .next t ∧ t.halted = true :=
  ⟨State.reset.raiseHalt .endSentinel, rfl, rfl⟩

def callFull : State := st 0x2300 fun s => { s with sp := 16 }

theorem witness_HaltCausesAreExact :
    (∃ t, stepAt 12 (st 0x5121) = .next t ∧ t.halted = true) ∧
      (∃ e, decodeWord (st 0x5121).fetchWord = .error e) ∧
      (∃ nnn, decodeWord (st 0x0123).fetchWord = .ok (.sys nnn)) ∧
      decodeWord State.reset.fetchWord = .ok .endSentinel ∧
      ((∃ nnn, decodeWord callFull.fetchWord = .ok (.call nnn)) ∧ callFull.sp.val = 16) ∧
      (decodeWord (st 0x00EE).fetchWord = .ok .ret ∧ (st 0x00EE).sp.val = 0) :=
  ⟨⟨(st 0x5121).raiseHalt .illegalOpcode, rfl, rfl⟩, ⟨.illegal 0x5121#16, by decide⟩,
    ⟨0x123#12, by decide⟩, by decide, ⟨⟨0x300#12, by decide⟩, rfl⟩, by decide, rfl⟩

theorem reset_inv : Inv 12 State.reset :=
  ⟨rfl, by decide, by decide, by decide, by decide, by decide⟩

theorem witness_StepKeepsTheInvariant :
    Inv 12 State.reset ∧ ∃ t, stepAt 12 State.reset = .next t :=
  ⟨reset_inv, State.reset.raiseHalt .endSentinel, rfl⟩

/-- Some registers, the index and the stack set. -/
def busy : State := { regs [(0, 0x12#8), (1, 0x34#8)] State.reset with
  i := 0x0300#16, sp := 1, dt := 5#8, rndIn := [0xB7#8] }

/-- Every writer writes: one instruction for each clause. -/
theorem witness_StateWrittenOnlyByItsInstructions :
    (∃ t, exec (.ldBVx 0) busy = .next t ∧ t.mem ≠ busy.mem) ∧
      (∃ t, exec (.ldI 0x123#12) busy = .next t ∧ t.i ≠ busy.i) ∧
      (∃ t, exec (.call 0x300#12) busy = .next t ∧ t.stack ≠ busy.stack ∧ t.sp ≠ busy.sp) ∧
      (∃ t, exec (.ldDTVx 0) busy = .next t ∧ t.dt ≠ busy.dt) ∧
      (∃ t, exec (.ldSTVx 0) busy = .next t ∧ t.st ≠ busy.st) ∧
      (∃ t, exec (.rnd 2 0xFF#8) busy = .next t ∧ t.rndIn ≠ busy.rndIn) ∧
      (∃ t, exec (.sys 0x123#12) busy = .next t ∧ t.halted ≠ busy.halted) :=
  ⟨⟨_, rfl, by decide⟩, ⟨_, rfl, by decide⟩, ⟨_, rfl, by decide, by decide⟩, ⟨_, rfl, by decide⟩,
    ⟨_, rfl, by decide⟩, ⟨_, rfl, by decide⟩, ⟨_, rfl, by decide⟩⟩

/-- The clause of the framebuffer: a draw of the font's first byte. -/
theorem witness_StateWrittenOnlyByItsInstructions_display :
    ∃ t, exec (.drw 2 2 1#4) State.reset = .next t ∧ t.fb ≠ State.reset.fb :=
  ⟨_, rfl, fun h => absurd (congrArg (fun fb => Framebuffer.cell fb 0 0) h) (by decide)⟩

theorem witness_RegistersWrittenOnlyAsListed :
    ∃ t, exec (.ldReg 2 0) busy = .next t ∧ t.getV 2 ≠ busy.getV 2 := ⟨_, rfl, by decide⟩

theorem witness_PcAdvancesByTwoUnlessListed :
    (pcMove .cls = .two ∧ ∃ t, exec .cls busy = .next t) ∧
      (pcMove (.skp 0) = .skip ∧ ∃ t, exec (.skp 0) busy = .next t) ∧
      (pcMove (.ldVxK 0) = .wait ∧ ∃ t, exec (.ldVxK 0) busy = .next t) ∧
      (pcMove .endSentinel = .stay ∧ ∃ t, exec .endSentinel busy = .next t) :=
  ⟨⟨rfl, _, rfl⟩, ⟨rfl, _, rfl⟩, ⟨rfl, _, rfl⟩, rfl, _, rfl⟩

theorem witness_FlagsAreZeroOrOne :
    setsFlag (.addReg 0 1) = true ∧ ∃ t, exec (.addReg 0 1) busy = .next t := ⟨rfl, _, rfl⟩

/-- Two states that differ in bits 15:12 of PC alone, running, halted and closed. -/
theorem witness_OnlyLowAddressBitsMatter :
    (SameButHighAddressBits State.reset { State.reset with pc := 0x1200#16 } ∧
        ∃ t, stepAt 12 State.reset = .next t) ∧
      (SameButHighAddressBits ended { ended with pc := 0x1200#16 } ∧
        stepAt 12 ended = .fault .haltedNoStep) ∧
      (SameButHighAddressBits closedCore { closedCore with pc := 0x1200#16 } ∧
        stepAt 12 closedCore = .refused .closedNoStep) :=
  ⟨⟨⟨by decide, rfl, fun _ => rfl, rfl⟩, State.reset.raiseHalt .endSentinel, rfl⟩,
    ⟨⟨by decide, rfl, fun _ => rfl, rfl⟩, rfl⟩, ⟨by decide, rfl, fun _ => rfl, rfl⟩, rfl⟩

/-- A cycle inside a tick, and one at whose end a frame is presented. -/
theorem witness_InputsAndFrameChangeOnlyAtABoundary :
    ((∃ t, stepAt 12 State.reset = .next t) ∧ State.reset.cyc + 1 ≠ 12) ∧
      (after lastKnown fun t => (t.fbOut.isSome, lastKnown.fbOut.isSome)) = some (true, false) :=
  ⟨⟨⟨State.reset.raiseHalt .endSentinel, rfl⟩, by decide⟩, by decide⟩

/-- The instruction of `lastKnown` writes neither timer, and it is the last cycle of a tick. -/
theorem witness_TimersCountDownAtBoundariesOnly :
    (after lastKnown fun t => t.halted) = some false ∧
      decodeWord lastKnown.fetchWord = .ok (.ldImm 0 1#8) ∧ lastKnown.cyc + 1 = 12 :=
  ⟨by decide, by decide, rfl⟩

/-- The first and the last stack level. -/
theorem witness_CallPushesItsOwnAddress :
    State.reset.sp.val < 16 ∧ ({ State.reset with sp := 15 } : State).sp.val < 16 := by decide

theorem witness_CallOnAFullStackHalts : callFull.sp.val = 16 := rfl

theorem witness_ReturnPopsTheCallAddress :
    ({ State.reset with sp := 1 } : State).sp.val = (0 : Fin 16).val + 1 ∧
      ({ State.reset with sp := 16 } : State).sp.val = (15 : Fin 16).val + 1 := by decide

theorem witness_ReturnOnAnEmptyStackHalts : State.reset.sp.val = 0 := rfl

theorem witness_CallThenReturn :
    busy.sp.val < 16 ∧ ∃ t, exec (.call 0x300#12) busy = .next t ∧
      ({ t with pc := 0x0312#16 } : State).sp = t.sp ∧
      ({ t with pc := 0x0312#16 } : State).stack = t.stack :=
  ⟨by decide, _, rfl, rfl, rfl⟩

/-! A destination other than VF, the lowest and the highest. -/
theorem witness_AddSetsTheCarry : (0 : Reg) ≠ 15 ∧ (14 : Reg) ≠ 15 := by decide
theorem witness_SubtractSetsTheFlag : (0 : Reg) ≠ 15 ∧ (14 : Reg) ≠ 15 := by decide
theorem witness_ShiftSetsTheFlag : (0 : Reg) ≠ 15 ∧ (14 : Reg) ≠ 15 := by decide

theorem witness_RandomMasksTheDraw :
    busy.rndIn = 0xB7#8 :: [] ∧ State.reset.rndIn = [] := ⟨rfl, rfl⟩

theorem witness_BlockStoreWritesTheRegisters :
    (0 : Reg).val ≤ (0 : Reg).val ∧ (15 : Reg).val ≤ (15 : Reg).val := by decide

theorem witness_BlockRoundTrip :
    ∃ t, exec (.ldMemVx 1) busy = .next t ∧ (t.setV 0 0#8).i = t.i ∧
      ∀ a, (t.setV 0 0#8).memRead a = t.memRead a := ⟨_, rfl, rfl, fun _ => rfl⟩

/-- V-M18: the two bytes after the store are its own. -/
theorem witness_StoreIsSeenByTheNextFetch :
    ∃ t, exec (.ldMemVx 1) { busy with i := 0x0202#16 } = .next t ∧
      (1 : Reg).val = (0 : Reg).val + 1 ∧ (1 : Reg).val ≤ (1 : Reg).val ∧
      t.pc.toNat % 4096 = (({ busy with i := 0x0202#16 } : State).blockBase + (0 : Reg).val) % 4096 :=
  ⟨_, rfl, by decide, by decide, by decide⟩

theorem witness_MemoryFormIsUnique :
    Memory.wf [(0x000, 0x00#8), (0xFFF, 0x01#8)] = true ∧
      ∀ a, Memory.read [(0x000, 0x00#8), (0xFFF, 0x01#8)] a =
        Memory.read [(0x000, 0x00#8), (0xFFF, 0x01#8)] a := ⟨by decide, fun _ => rfl⟩

/-- V-D4: one sprite bit over a set cell and one over a clear cell; a cell beside the sprite. -/
def drawState : State :=
  { (mem 0x300 [0xC0#8] State.reset).setI 0x0300#16 with fb := lit [(1, 0)] }

theorem witness_DrawFlipsTheUnclippedCells :
    SpriteCovers drawState drawState.blockBase (drawState.getV 2).toNat (drawState.getV 1).toNat
        1 0 1 ∧ drawState.fb.cell 0 1 = true ∧
      ¬SpriteCovers drawState drawState.blockBase (drawState.getV 2).toNat
        (drawState.getV 1).toNat 1 31 63 ∧
      ¬∃ r c : Nat, r < 32 ∧ c < 64 ∧ drawState.fb.cell r c = true ∧
        SpriteCovers drawState drawState.blockBase (drawState.getV 2).toNat
          (drawState.getV 1).toNat 0 r c := by
  refine ⟨⟨by decide, by decide, by decide, by decide, by decide⟩, by decide,
    fun h => absurd h.2.1 (by decide), ?_⟩
  rintro ⟨r, c, -, -, -, h1, h2, -⟩
  exact absurd (Nat.lt_of_le_of_lt h1 h2) (by decide)

theorem witness_DrawTwiceRestoresTheFramebuffer :
    ∃ t, exec (.drw 1 2 1#4) drawState = .next t ∧ t.getV 1 = drawState.getV 1 ∧
      t.getV 2 = drawState.getV 2 := ⟨_, rfl, by decide, by decide⟩

def delayLast : State := st 0xF015 fun s => { s with cyc := 11 }

theorem witness_DelayTimerWriteAndTheLastCycle :
    Running delayLast ∧ decodeWord delayLast.fetchWord = .ok (.ldDTVx 0) ∧
      delayLast.cyc + 1 = 12 := ⟨⟨rfl, rfl⟩, by decide, rfl⟩

/-- Key 0 latched. -/
def keyZero : State := { State.reset with key := some 0#4 }

theorem witness_KeySkips : keyZero.key = some 0#4 ∧ State.reset.key = none := ⟨rfl, rfl⟩

theorem witness_WaitForKeyStoresTheKey :
    keyZero.key = some 0#4 ∧ State.reset.key = none := ⟨rfl, rfl⟩

theorem witness_WaitingCycleOnlyCounts :
    Running (st 0xF00A) ∧ decodeWord (st 0xF00A).fetchWord = .ok (.ldVxK 0) ∧
      (st 0xF00A).key = none := ⟨⟨rfl, rfl⟩, by decide, rfl⟩

end Sys2Proof.Tests
end

section
/-! PROOFS. Memory after a reset, region by region, and the address map it gives
(20_memory.md R47). -/

namespace Sys2Proof.Machine

/-- From 0x050 on, an address that is not listed reads zero. -/
theorem unlistedByte_of_font_end_le {a : Nat} (h : 0x050 ≤ a) : unlistedByte a = 0#8 :=
  if_neg (by omega)

section
variable (font : Font) (image : Image)

/-- The image does not run past the end of memory, so its block reads as it was written. -/
theorem Memory.read_afterReset_image (k : Nat) (h : k < image.val.length) :
    (Memory.afterReset font image).read (0x200 + k) = image.val[k] :=
  Memory.read_writeBytes_inside _ _ _ _ (by have := image.property; omega) h

/-- The image is written from 0x200 on and stays below 0x1000: outside it, memory reads what the
writing of the font left. -/
theorem Memory.read_afterReset_outside_image {a : Nat} (ha : a < 0x1000)
    (h : a < 0x200 ∨ 0x200 + image.val.length ≤ a) :
    (Memory.afterReset font image).read a = (Memory.writeBytes [] 0x000 font.toList).read a := by
  have hlen := image.property
  exact Memory.read_writeBytes_outside _ _ _ _ fun k hk => by omega

theorem Memory.read_afterReset_font (a : Nat) (h : a < 80) :
    (Memory.afterReset font image).read a = font[a] := by
  have hfont := Memory.read_writeBytes_inside font.toList [] 0x000 a (by simp) (by simpa using h)
  rw [Memory.read_afterReset_outside_image font image (by omega) (.inl (by omega))]
  rwa [Nat.zero_add, Vector.getElem_toList] at hfont

/-- Neither block reaches the rest of memory, which keeps the zeros written first. -/
theorem Memory.read_afterReset_zero {a : Nat} (hfont : 0x050 ≤ a) (ha : a < 0x1000)
    (h : a < 0x200 ∨ 0x200 + image.val.length ≤ a) :
    (Memory.afterReset font image).read a = 0#8 := by
  have hout : ∀ k, k < font.toList.length → a % 4096 ≠ (0x000 + k) % 4096 := by
    intro k hk
    rw [Vector.length_toList] at hk
    omega
  calc (Memory.afterReset font image).read a
      = (Memory.writeBytes [] 0x000 font.toList).read a :=
        Memory.read_afterReset_outside_image font image ha h
    _ = Memory.read [] a := Memory.read_writeBytes_outside _ _ _ _ hout
    _ = unlistedByte a := congrArg unlistedByte (Nat.mod_eq_of_lt ha)
    _ = 0#8 := unlistedByte_of_font_end_le hfont

end

/-- Settles O1: the font, the gap, the image and the rest of memory, each by the lemma of its
region of `Memory.afterReset`; the entry point is a literal of `State.resetWith`. -/
theorem resetMemoryMap : Obligations.ResetMemoryMap := by
  intro font image
  refine ⟨fun a h => ?font, fun a h50 h200 => ?gap, fun k h => ?image, fun a h h1000 => ?rest, rfl⟩
  case font => exact Memory.read_afterReset_font font image a h
  case gap => exact Memory.read_afterReset_zero font image h50 (by omega) (.inl h200)
  case image => exact Memory.read_afterReset_image font image k h
  case rest => exact Memory.read_afterReset_zero font image (by omega) h1000 (.inr h)

end Sys2Proof.Machine
end

section
/-! PROOFS. The jump and the compare skips: their executes only move the program counter
(41_control_transfer.md R102, R104 to R107). -/

namespace Sys2Proof.Machine

open Sys2Proof.Safety

section
variable (s : State)

/-! ### A move of the program counter -/

/-- Each conjunct is the law of `State.setPc` for its field. -/
theorem State.onlyPc_setPc (w : Word) : OnlyPc s (s.setPc w) := by
  have hregs : KeepsRegsBut [] s (s.setPc w) := fun r _ => s.getV_setPc r w
  have hmem : KeepsMemory s (s.setPc w) := s.memRead_setPc w
  have hrun : KeepsRun s (s.setPc w) := by simp [KeepsRun]
  exact ⟨hregs, ⟨s.setPc_i w, hmem, ⟨s.setPc_sp w, s.setPc_stack w⟩, ⟨s.setPc_dt w, s.setPc_st w⟩,
    fun _ _ => by rw [s.setPc_fb], hrun⟩, s.setPc_rndIn w, s.setPc_rndCount w⟩

theorem State.onlyPc_skipIf (c : Bool) : OnlyPc s (s.skipIf c) := s.onlyPc_setPc _

theorem State.skipIf_beq_pc (a b : Byte) :
    (s.skipIf (a == b)).pc = if a = b then s.pc + 4#16 else s.pc + 2#16 := by
  by_cases h : a = b <;> simp [h]

theorem State.skipIf_bne_pc (a b : Byte) :
    (s.skipIf (a != b)).pc = if a = b then s.pc + 2#16 else s.pc + 4#16 := by
  by_cases h : a = b <;> simp [h]

/-! ### What each of the five executes answers -/

theorem exec_jp (nnn : Addr) : exec (.jp nnn) s = .next (s.setPc (zextAddr nnn)) := rfl

theorem exec_seImm (x : Reg) (kk : Byte) :
    exec (.seImm x kk) s = .next (s.skipIf (s.getV x == kk)) := rfl

theorem exec_sneImm (x : Reg) (kk : Byte) :
    exec (.sneImm x kk) s = .next (s.skipIf (s.getV x != kk)) := rfl

theorem exec_seReg (x y : Reg) :
    exec (.seReg x y) s = .next (s.skipIf (s.getV x == s.getV y)) := rfl

theorem exec_sneReg (x y : Reg) :
    exec (.sneReg x y) s = .next (s.skipIf (s.getV x != s.getV y)) := rfl

end

/-- Settles O29: each of the four is a `State.skipIf`, on equal operands for SE and on different ones
for SNE. -/
theorem skipsCompareAndAdvance : Obligations.SkipsCompareAndAdvance := by
  intro s x y kk
  refine ⟨?seImm, ?sneImm, ?seReg, ?sneReg⟩
  case seImm => exact ⟨_, exec_seImm s x kk, s.onlyPc_skipIf _, s.skipIf_beq_pc _ _⟩
  case sneImm => exact ⟨_, exec_sneImm s x kk, s.onlyPc_skipIf _, s.skipIf_bne_pc _ _⟩
  case seReg => exact ⟨_, exec_seReg s x y, s.onlyPc_skipIf _, s.skipIf_beq_pc _ _⟩
  case sneReg => exact ⟨_, exec_sneReg s x y, s.onlyPc_skipIf _, s.skipIf_bne_pc _ _⟩

/-- Settles O30: the target is `nnn` widened to a word, which keeps its value. -/
theorem jumpLandsOnItsTarget : Obligations.JumpLandsOnItsTarget := fun s nnn =>
  ⟨_, exec_jp s nnn, s.onlyPc_setPc _, zextAddr_toNat nnn⟩

end Sys2Proof.Machine
end

section
/-! PROOFS. The instructions that write one register and no flag: loads, the immediate add and the
three bitwise operations (42_alu.md R120 to R125). -/

namespace Sys2Proof.Safety

open Sys2Proof.Machine

/-! ### The frame of a register write and of the advance -/

section
variable {l : List Reg} {s t : State}

theorem KeepsAllButRegs.refl (s : State) : KeepsAllButRegs s s :=
  ⟨⟨rfl, fun _ => rfl, ⟨rfl, rfl⟩, ⟨rfl, rfl⟩, fun _ _ => rfl,
    ⟨rfl, rfl, rfl, rfl, rfl, rfl, rfl, rfl⟩⟩, rfl, rfl⟩

theorem OnlyRegs.refl (l : List Reg) (s : State) : OnlyRegs l s s :=
  ⟨fun _ _ => rfl, KeepsAllButRegs.refl s⟩

/-- No field that `KeepsAllButRegs` names is written, so that half of the frame is the same fact. -/
theorem OnlyRegs.setV (h : OnlyRegs l s t) {x : Reg} (hx : x ∈ l) (b : Byte) :
    OnlyRegs l s (t.setV x b) := by
  obtain ⟨hregs, hrest⟩ := h
  refine ⟨fun r hr => ?_, hrest⟩
  have hne : x ≠ r := fun e => hr (e ▸ hx)
  rw [State.getV_setV, if_neg hne, hregs r hr]

theorem OnlyRegs.advance (h : OnlyRegs l s t) : OnlyRegs l s t.advance := h

end

end Sys2Proof.Safety

namespace Sys2Proof.Machine

open Sys2Proof.Safety

/-- What an instruction does that writes `b` to `Vx` and goes on to the next one. `x` may be F. -/
theorem exec_writes_one_register {s : State} {i : Instr} {x : Reg} {b : Byte}
    (h : exec i s = .next (s.setV x b).advance) :
    ∃ t, exec i s = .next t ∧ OnlyRegs [x] s t ∧ t.pc = s.pc + 2#16 ∧ t.getV x = b := by
  have hregs : OnlyRegs [x] s (s.setV x b).advance :=
    ((OnlyRegs.refl [x] s).setV (List.mem_singleton_self x) b).advance
  exact ⟨_, h, hregs, by simp, by simp⟩

/-! ### What each of the six executes answers -/

section
variable (s : State)

theorem exec_ldImm (x : Reg) (kk : Byte) :
    exec (.ldImm x kk) s = .next (s.setV x kk).advance := rfl

theorem exec_addImm (x : Reg) (kk : Byte) :
    exec (.addImm x kk) s = .next (s.setV x (s.getV x + kk)).advance := rfl

theorem exec_ldReg (x y : Reg) : exec (.ldReg x y) s = .next (s.setV x (s.getV y)).advance := rfl

theorem exec_or (x y : Reg) :
    exec (.or x y) s = .next (s.setV x (s.getV x ||| s.getV y)).advance := rfl

theorem exec_and (x y : Reg) :
    exec (.and x y) s = .next (s.setV x (s.getV x &&& s.getV y)).advance := rfl

theorem exec_xor (x y : Reg) :
    exec (.xor x y) s = .next (s.setV x (s.getV x ^^^ s.getV y)).advance := rfl

end

/-- Settles O37: each of the three writes one register; the sum of two bytes is taken modulo 256. -/
theorem loadsAndImmediateAdd : Obligations.LoadsAndImmediateAdd := by
  intro s x y kk
  refine ⟨exec_writes_one_register (exec_ldImm s x kk), ?addImm,
    exec_writes_one_register (exec_ldReg s x y)⟩
  case addImm =>
    obtain ⟨t, ht, hregs, hpc, hx⟩ := exec_writes_one_register (exec_addImm s x kk)
    exact ⟨t, ht, hregs, hpc, by rw [hx, BitVec.toNat_add]⟩

/-- Settles O38: each of the three writes one register, and the operation on bytes is the one on
their bits. -/
theorem logicLeavesTheFlag : Obligations.LogicLeavesTheFlag := by
  intro s x y
  refine ⟨?or, ?and, ?xor⟩
  case or =>
    obtain ⟨t, ht, hregs, hpc, hx⟩ := exec_writes_one_register (exec_or s x y)
    exact ⟨t, ht, hregs, hpc, fun k => by rw [hx, BitVec.getLsbD_or]⟩
  case and =>
    obtain ⟨t, ht, hregs, hpc, hx⟩ := exec_writes_one_register (exec_and s x y)
    exact ⟨t, ht, hregs, hpc, fun k => by rw [hx, BitVec.getLsbD_and]⟩
  case xor =>
    obtain ⟨t, ht, hregs, hpc, hx⟩ := exec_writes_one_register (exec_xor s x y)
    exact ⟨t, ht, hregs, hpc, fun k => by rw [hx, BitVec.getLsbD_xor]⟩

end Sys2Proof.Machine
end

section
/-! PROOFS. The load of the index register and the store of a block of bytes at it
(43_index_memory.md R140, R146). -/

namespace Sys2Proof.Machine

open Sys2Proof.Safety

section
variable (s : State)

/-! ### The frames of an index write and of a block store -/

theorem State.onlyIndex_setI_advance (w : Word) : OnlyIndex s (s.setI w).advance := by
  obtain ⟨⟨-, hmem, hstack, htimers, hdisplay, hrun⟩, hdraws⟩ := KeepsAllButRegs.refl s
  exact ⟨fun _ _ => rfl, hmem, hstack, htimers, hdisplay, hrun, hdraws⟩

theorem State.onlyMemory_storeBytes_advance (addr : Nat) (bs : List Byte) :
    OnlyMemory addr bs.length s (s.storeBytes addr bs).advance := by
  obtain ⟨⟨hi, -, hstack, htimers, hdisplay, hrun⟩, hdraws⟩ := KeepsAllButRegs.refl s
  have hmem : KeepsMemoryOutside addr bs.length s (s.storeBytes addr bs).advance :=
    s.memRead_storeBytes_outside bs addr
  exact ⟨fun _ _ => rfl, hi, hmem, hstack, htimers, hdisplay, hrun, hdraws⟩

/-! ### The two forms of execute -/

variable {s} {i : Instr}

/-- What an instruction does that writes `w` to the index register and goes on to the next one. -/
theorem exec_writes_index {w : Word} (h : exec i s = .next (s.setI w).advance) :
    ∃ t, exec i s = .next t ∧ OnlyIndex s t ∧ t.pc = s.pc + 2#16 ∧ t.i = w :=
  ⟨_, h, s.onlyIndex_setI_advance w, by simp, by simp⟩

/-- What an instruction does that stores the bytes `bs` from `addr` on and goes on to the next one.
A block longer than memory would overwrite its own first bytes. -/
theorem exec_stores_block {addr : Nat} {bs : List Byte}
    (h : exec i s = .next (s.storeBytes addr bs).advance) (hlen : bs.length ≤ 4096) :
    ∃ t, exec i s = .next t ∧ OnlyMemory addr bs.length s t ∧ t.pc = s.pc + 2#16 ∧
      ∀ (k : Nat) (hk : k < bs.length), t.memRead (addr + k) = bs[k] := by
  refine ⟨_, h, s.onlyMemory_storeBytes_advance addr bs, by simp, fun k hk => ?_⟩
  rw [State.advance_eq, State.memRead_setPc, s.memRead_storeBytes_inside bs addr k hlen hk]

end

/-! ### What the two executes answer -/

theorem exec_ldI (s : State) (nnn : Addr) :
    exec (.ldI nnn) s = .next (s.setI (zextAddr nnn)).advance := rfl

theorem exec_ldBVx (s : State) (x : Reg) :
    exec (.ldBVx x) s = .next (s.storeBytes s.blockBase (bcdDigits (s.getV x))).advance := rfl

/-! ### The digits as numbers -/

/-- No digit is cut by its 8 bits. -/
theorem bcdDigits_map_toNat (b : Byte) :
    (bcdDigits b).map BitVec.toNat = [b.toNat / 100, b.toNat / 10 % 10, b.toNat % 10] := by
  have hb := b.isLt
  have hundreds : b.toNat / 100 < 2 ^ 8 := by omega
  have tens : b.toNat / 10 % 10 < 2 ^ 8 := by omega
  have ones : b.toNat % 10 < 2 ^ 8 := by omega
  simp only [bcdDigits, List.map_cons, List.map_nil, BitVec.toNat_ofNat, Nat.mod_eq_of_lt hundreds,
    Nat.mod_eq_of_lt tens, Nat.mod_eq_of_lt ones]

theorem bcdDigits_getElem_toNat (b : Byte) (k : Nat) (hk : k < (bcdDigits b).length) :
    (bcdDigits b)[k].toNat = [b.toNat / 100, b.toNat / 10 % 10, b.toNat % 10][k] := by
  simp only [← bcdDigits_map_toNat, List.getElem_map]

/-- Settles O43: the immediate is widened to a word, which keeps its value. -/
theorem indexLoad : Obligations.IndexLoad := by
  intro s nnn
  obtain ⟨t, ht, honly, hpc, hi⟩ := exec_writes_index (exec_ldI s nnn)
  exact ⟨t, ht, honly, hpc, by rw [hi, zextAddr_toNat]⟩

/-- Settles O45: the block stored at `I` is the list of the three digits. -/
theorem bcdStoresTheDigits : Obligations.BcdStoresTheDigits := by
  intro s x
  obtain ⟨t, ht, honly, hpc, hread⟩ := exec_stores_block (exec_ldBVx s x) (by simp)
  have hdigit (k : Nat) (hk : k < 3) : (t.memRead (s.blockBase + k)).toNat =
      [(s.getV x).toNat / 100, (s.getV x).toNat / 10 % 10, (s.getV x).toNat % 10][k] :=
    (congrArg BitVec.toNat (hread k hk)).trans (bcdDigits_getElem_toNat (s.getV x) k hk)
  exact ⟨t, ht, honly, hpc, hdigit 0 (by decide), hdigit 1 (by decide), hdigit 2 (by decide)⟩

end Sys2Proof.Machine
end

section
/-! PROOFS. Clearing the screen (44_display.md R160). -/

namespace Sys2Proof.Machine

open Sys2Proof.Safety

section
variable (s : State)

/-- Everything `OnlyDisplay` speaks of lies outside the framebuffer and the program counter, so its
parts are those of the frame that relates `s` to itself. -/
theorem State.onlyDisplay_setFB_advance (fb : Framebuffer) :
    OnlyDisplay [] s (s.setFB fb).advance := by
  obtain ⟨⟨hi, hmem, hstack, htimers, -, hrun⟩, hdraws⟩ := KeepsAllButRegs.refl s
  exact ⟨fun _ _ => rfl, hi, hmem, hstack, htimers, hrun, hdraws⟩

theorem exec_cls : exec .cls s = .next (s.setFB Framebuffer.blank).advance := rfl

end

/-- Settles O51: CLS writes the blank framebuffer, every cell of which is 0, and goes on to the next
instruction. -/
theorem clearScreenClearsEveryCell : Obligations.ClearScreenClearsEveryCell := by
  intro s
  have hclear (r c : Nat) : (s.setFB Framebuffer.blank).advance.fb.cell r c = false := by
    rw [State.advance_eq, State.setPc_fb, State.setFB_fb, Framebuffer.cell_blank]
  exact ⟨_, exec_cls s, s.onlyDisplay_setFB_advance _, by simp, hclear⟩

end Sys2Proof.Machine
end

section
/-! PROOFS. The fields of a word: a word is its fields side by side, and the fields of fixed bits with
packed operands are those of the fixed bits and the operands (30_encoding.md R61, R62). -/

namespace Sys2Proof

/-! ### A word and its fields -/

theorem regBits_injective {x y : Reg} (h : regBits x = regBits y) : x = y := by
  have h := congrArg BitVec.toNat h
  rw [regBits, regBits, BitVec.toNat_ofNat, BitVec.toNat_ofNat, Nat.mod_eq_of_lt x.isLt,
    Nat.mod_eq_of_lt y.isLt] at h
  exact Fin.ext h

section
variable (w : Word)

theorem regBits_fieldX : regBits (fieldX w) = w.extractLsb' 8 4 :=
  (BitVec.ofNat_toNat ..).trans (BitVec.setWidth_eq _)

theorem regBits_fieldY : regBits (fieldY w) = w.extractLsb' 4 4 :=
  (BitVec.ofNat_toNat ..).trans (BitVec.setWidth_eq _)

theorem fieldOp_append_fieldNNN : fieldOp w ++ fieldNNN w = w :=
  (BitVec.extractLsb'_append_extractLsb'_eq_extractLsb' rfl).trans BitVec.extractLsb'_eq_self

theorem regBits_fieldX_append_fieldKK : regBits (fieldX w) ++ fieldKK w = fieldNNN w := by
  rw [regBits_fieldX]
  exact BitVec.extractLsb'_append_extractLsb'_eq_extractLsb' rfl

theorem regBits_fieldY_append_fieldN : regBits (fieldY w) ++ fieldN w = fieldKK w := by
  rw [regBits_fieldY]
  exact BitVec.extractLsb'_append_extractLsb'_eq_extractLsb' rfl

end

section
variable {v w : Word}

theorem eq_of_fieldNNN (hop : fieldOp v = fieldOp w) (hnnn : fieldNNN v = fieldNNN w) : v = w := by
  rw [← fieldOp_append_fieldNNN v, ← fieldOp_append_fieldNNN w, hop, hnnn]

theorem eq_of_fieldKK (hop : fieldOp v = fieldOp w) (hx : fieldX v = fieldX w)
    (hkk : fieldKK v = fieldKK w) : v = w :=
  eq_of_fieldNNN hop <| by
    rw [← regBits_fieldX_append_fieldKK v, ← regBits_fieldX_append_fieldKK w, hx, hkk]

theorem eq_of_fieldN (hop : fieldOp v = fieldOp w) (hx : fieldX v = fieldX w)
    (hy : fieldY v = fieldY w) (hn : fieldN v = fieldN w) : v = w :=
  eq_of_fieldKK hop hx <| by
    rw [← regBits_fieldY_append_fieldN v, ← regBits_fieldY_append_fieldN w, hy, hn]

end

/-! ### The fields of packed operands -/

theorem append_inj {m n : Nat} {a b : BitVec m} {c d : BitVec n} (h : a ++ c = b ++ d) :
    a = b ∧ c = d := by
  have hhigh := congrArg (BitVec.extractLsb' n m) h
  have hlow := congrArg (BitVec.extractLsb' 0 n) h
  rw [BitVec.extractLsb'_append_eq_left, BitVec.extractLsb'_append_eq_left] at hhigh
  rw [BitVec.extractLsb'_append_eq_right, BitVec.extractLsb'_append_eq_right] at hlow
  exact ⟨hhigh, hlow⟩

section
variable (nnn : Addr) (x y : Reg) (kk : Byte) (n : Nibble)

@[simp] theorem fields_packNNN : fieldOp (packNNN nnn) = 0#4 ∧ fieldNNN (packNNN nnn) = nnn :=
  append_inj (fieldOp_append_fieldNNN (packNNN nnn))

@[simp] theorem fields_packXKK : fieldOp (packXKK x kk) = 0#4 ∧ fieldX (packXKK x kk) = x ∧
    fieldKK (packXKK x kk) = kk := by
  have hassoc : packXKK x kk = 0#4 ++ (regBits x ++ kk) := BitVec.append_assoc
  obtain ⟨hop, hnnn⟩ := append_inj ((fieldOp_append_fieldNNN (packXKK x kk)).trans hassoc)
  obtain ⟨hx, hkk⟩ := append_inj ((regBits_fieldX_append_fieldKK (packXKK x kk)).trans hnnn)
  exact ⟨hop, regBits_injective hx, hkk⟩

@[simp] theorem fields_packXYN : fieldOp (packXYN x y n) = 0#4 ∧ fieldX (packXYN x y n) = x ∧
    fieldY (packXYN x y n) = y ∧ fieldN (packXYN x y n) = n := by
  have hassoc : packXYN x y n = packXKK x (regBits y ++ n) := BitVec.append_assoc
  obtain ⟨hop, hx, hkk⟩ := hassoc ▸ fields_packXKK x (regBits y ++ n)
  obtain ⟨hy, hn⟩ := append_inj ((regBits_fieldY_append_fieldN (packXYN x y n)).trans hkk)
  exact ⟨hop, hx, regBits_injective hy, hn⟩

@[simp] theorem fieldKK_packX : fieldKK (packXYN x 0 0#4) = 0#8 := by
  obtain ⟨-, -, hy, hn⟩ := fields_packXYN x 0 0#4
  rw [← regBits_fieldY_append_fieldN, hy, hn]
  rfl

end

/-! ### The fields of fixed bits with operands -/

section
variable {p : Word} (o : Word)

@[simp] theorem fieldOp_or : fieldOp (p ||| o) = fieldOp p ||| fieldOp o := BitVec.extractLsb'_or
@[simp] theorem fieldN_or : fieldN (p ||| o) = fieldN p ||| fieldN o := BitVec.extractLsb'_or
@[simp] theorem fieldKK_or : fieldKK (p ||| o) = fieldKK p ||| fieldKK o := BitVec.extractLsb'_or
@[simp] theorem fieldNNN_or : fieldNNN (p ||| o) = fieldNNN p ||| fieldNNN o :=
  BitVec.extractLsb'_or

@[simp] theorem fieldX_or (hp : p.extractLsb' 8 4 = 0#4) : fieldX (p ||| o) = fieldX o := by
  apply regBits_injective
  rw [regBits_fieldX, regBits_fieldX, BitVec.extractLsb'_or, hp, BitVec.zero_or]

@[simp] theorem fieldY_or (hp : p.extractLsb' 4 4 = 0#4) : fieldY (p ||| o) = fieldY o := by
  apply regBits_injective
  rw [regBits_fieldY, regBits_fieldY, BitVec.extractLsb'_or, hp, BitVec.zero_or]

end

section
variable (k : Nat)

@[simp] theorem fieldOp_ofNat : fieldOp (BitVec.ofNat 16 k) = BitVec.ofNat 4 (k / 4096) := by
  apply BitVec.eq_of_toNat_eq
  simp only [fieldOp, BitVec.extractLsb'_toNat, BitVec.toNat_ofNat, Nat.shiftRight_eq_div_pow]
  omega

@[simp] theorem fieldNNN_ofNat : fieldNNN (BitVec.ofNat 16 k) = BitVec.ofNat 12 k := by
  apply BitVec.eq_of_toNat_eq
  simp only [fieldNNN, BitVec.extractLsb'_toNat, BitVec.toNat_ofNat, Nat.shiftRight_zero]
  omega

@[simp] theorem fieldKK_ofNat : fieldKK (BitVec.ofNat 16 k) = BitVec.ofNat 8 k := by
  apply BitVec.eq_of_toNat_eq
  simp only [fieldKK, BitVec.extractLsb'_toNat, BitVec.toNat_ofNat, Nat.shiftRight_zero]
  omega

@[simp] theorem fieldN_ofNat : fieldN (BitVec.ofNat 16 k) = BitVec.ofNat 4 k := by
  apply BitVec.eq_of_toNat_eq
  simp only [fieldN, BitVec.extractLsb'_toNat, BitVec.toNat_ofNat, Nat.shiftRight_zero]
  omega

end

/-! ### A word put together again from its fields -/

section
variable {w p : Word} {n : Nibble} (hop : fieldOp p = fieldOp w)
include hop

theorem packNNN_of_fields (hp : fieldNNN p = 0#12) : p ||| packNNN (fieldNNN w) = w :=
  eq_of_fieldNNN (by simp [hop]) (by simp [hp])

theorem packXKK_of_fields (hx : p.extractLsb' 8 4 = 0#4) (hkk : fieldKK p = 0#8) :
    p ||| packXKK (fieldX w) (fieldKK w) = w :=
  eq_of_fieldKK (by simp [hop]) (by simp [hx]) (by simp [hkk])

theorem packXYN_of_fields (hx : p.extractLsb' 8 4 = 0#4) (hy : p.extractLsb' 4 4 = 0#4)
    (hn : fieldN p ||| n = fieldN w) :
    p ||| packXYN (fieldX w) (fieldY w) n = w :=
  eq_of_fieldN (by simp [hop]) (by simp [hx]) (by simp [hy]) (by simp [hn])

theorem packX_of_fields (hx : p.extractLsb' 8 4 = 0#4) (hkk : fieldKK p = fieldKK w) :
    p ||| packXYN (fieldX w) 0 0#4 = w :=
  eq_of_fieldKK (by simp [hop]) (by simp [hx]) (by simp [hkk])

end

end Sys2Proof
end

section
/-! PROOFS. Encoding and decoding are inverse to each other (30_encoding.md R60 to R70). -/

namespace Sys2Proof

/-! ### Decoding an encoded instruction -/

theorem decodeBytes_wordBytes (w : Word) :
    decodeBytes (wordBytes w) = (decodeWord w).map (fun i => (i, [])) := by
  have hw : w.extractLsb' 8 8 ++ w.extractLsb' 0 8 = w :=
    (BitVec.extractLsb'_append_extractLsb'_eq_extractLsb' rfl).trans BitVec.extractLsb'_eq_self
  rw [wordBytes, Machine.decodeBytes_pair, hw]

/-- The three words of its group that SYS does not take are the encodings of no other operand. -/
theorem decodeWord_encode_sys {nnn : Addr} (h : (Instr.sys nnn).wf = true) :
    decodeWord (encode (.sys nnn)) = .ok (.sys nnn) := by
  obtain ⟨hop, hnnn⟩ := fields_packNNN nnn
  have henc : encode (.sys nnn) = packNNN nnn := BitVec.zero_or ..
  have hne {c : Addr} (hc : nnn ≠ c) : packNNN nnn ≠ packNNN c := fun e =>
    hc (by rw [← hnnn, e, (fields_packNNN c).2])
  simp only [Instr.wf, Bool.and_eq_true, bne_iff_ne] at h
  obtain ⟨⟨hend, hcls⟩, hret⟩ := h
  have hend : packNNN nnn ≠ 0x0000#16 := hne hend
  have hcls : packNNN nnn ≠ 0x00E0#16 := hne hcls
  have hret : packNNN nnn ≠ 0x00EE#16 := hne hret
  simp only [henc, decodeWord, hop, decodeGroup0, if_neg hend, if_neg hcls, if_neg hret, hnnn]

/-- The fields of the encoded word are the literals of its row and the operands, so each match of the
decoder takes the arm of the instruction. -/
theorem decodeWord_encode (i : Instr) (h : i.wf = true) : decodeWord (encode i) = .ok i := by
  cases i with
  | endSentinel | cls | ret => rfl
  | sys nnn => exact decodeWord_encode_sys h
  | ldReg x y | or x y | and x y | xor x y | addReg x y | sub x y | shr x y | subn x y | shl x y =>
    simp [encode, Instr.row, Instr.operandBits, decodeWord, decodeGroup8]
  | skp x | sknp x => simp [encode, Instr.row, Instr.operandBits, decodeWord, decodeGroupE]
  | ldVxDT x | ldVxK x | ldDTVx x | ldSTVx x | addIVx x | ldFVx x | ldBVx x | ldMemVx x
  | ldVxMem x => simp [encode, Instr.row, Instr.operandBits, decodeWord, decodeGroupF]
  | _ => simp [encode, Instr.row, Instr.operandBits, decodeWord]

/-- Settles O5, by the decoding of the encoded word: the two bytes are the halves of that word. -/
theorem decodeInvertsEncode : Obligations.DecodeInvertsEncode := by
  intro i hi
  rw [decodeBytes_wordBytes, decodeWord_encode i hi]
  rfl

/-! ### Encoding a decoded instruction -/

section
variable {w : Word} {i : Instr}

theorem encode_decodeGroup0 (hop : fieldOp w = 0x0#4) : encode (decodeGroup0 w) = w := by
  unfold decodeGroup0
  split_ifs with hend hcls hret
  · exact hend.symm
  · exact hcls.symm
  · exact hret.symm
  · simp only [encode, Instr.row, Instr.operandBits]
    exact packNNN_of_fields hop.symm rfl

theorem encode_of_decodeGroup8 (hop : fieldOp w = 0x8#4) (h : decodeGroup8 w = .ok i) :
    encode i = w := by
  unfold decodeGroup8 at h
  split at h <;> cases h
  all_goals
    rename_i hn
    simp only [encode, Instr.row, Instr.operandBits]
    exact packXYN_of_fields hop.symm rfl rfl hn.symm

theorem encode_of_decodeGroupE (hop : fieldOp w = 0xE#4) (h : decodeGroupE w = .ok i) :
    encode i = w := by
  unfold decodeGroupE at h
  split at h <;> cases h
  all_goals
    rename_i hkk
    simp only [encode, Instr.row, Instr.operandBits]
    exact packX_of_fields hop.symm rfl hkk.symm

theorem encode_of_decodeGroupF (hop : fieldOp w = 0xF#4) (h : decodeGroupF w = .ok i) :
    encode i = w := by
  unfold decodeGroupF at h
  split at h <;> cases h
  all_goals
    rename_i hkk
    simp only [encode, Instr.row, Instr.operandBits]
    exact packX_of_fields hop.symm rfl hkk.symm

theorem encode_of_decodeWord (h : decodeWord w = .ok i) : encode i = w := by
  unfold decodeWord at h
  split at h
  case h_1 hop =>
    cases h
    exact encode_decodeGroup0 hop
  case h_2 hop | h_3 hop | h_11 hop | h_12 hop =>
    cases h
    simp only [encode, Instr.row, Instr.operandBits]
    exact packNNN_of_fields hop.symm rfl
  case h_4 hop | h_5 hop | h_7 hop | h_8 hop | h_13 hop =>
    cases h
    simp only [encode, Instr.row, Instr.operandBits]
    exact packXKK_of_fields hop.symm rfl rfl
  case h_6 hop | h_10 hop =>
    split at h <;> cases h
    rename_i hn
    simp only [encode, Instr.row, Instr.operandBits]
    exact packXYN_of_fields hop.symm rfl rfl hn.symm
  case h_9 hop => exact encode_of_decodeGroup8 hop h
  case h_14 hop =>
    cases h
    simp only [encode, Instr.row, Instr.operandBits]
    exact packXYN_of_fields hop.symm rfl rfl (BitVec.zero_or ..)
  case h_15 hop => exact encode_of_decodeGroupE hop h
  case h_16 =>
    have hop : fieldOp w = 0xF#4 := by
      clear h
      generalize fieldOp w = op at *
      decide +revert
    exact encode_of_decodeGroupF hop h

/-- Only SYS has ill-formed terms, and the words of these decode to END, CLS and RET. -/
theorem wf_of_decodeWord (h : decodeWord w = .ok i) : i.wf = true := by
  cases i with
  | sys nnn =>
    have hne {c : Addr} (hc : decodeWord (encode (.sys c)) ≠ .ok (.sys c)) : nnn ≠ c := fun e =>
      hc (by rw [← e, encode_of_decodeWord h, h])
    simp only [Instr.wf, Bool.and_eq_true, bne_iff_ne]
    exact ⟨⟨hne (by decide), hne (by decide)⟩, hne (by decide)⟩
  | _ => rfl

end

/-- Settles O6: each arm of the decoder keeps every field of the word, as an operand or by the literal
it matched. -/
theorem encodeInvertsDecode : Obligations.EncodeInvertsDecode := fun _ _ h =>
  ⟨wf_of_decodeWord h, encode_of_decodeWord h⟩

/-- Settles O10, by running the decoder on each of the nine words. -/
theorem wordsDecodeToTheirInstruction : Obligations.WordsDecodeToTheirInstruction :=
  ⟨rfl, rfl, rfl, rfl, rfl, rfl, rfl, rfl, rfl⟩

end Sys2Proof
end

section
/-! PROOFS. The decoder against the opcode map, and the Illegal words (30_encoding.md R66, R67). -/

namespace Sys2Proof

/-! ### The rows of the opcode map -/

theorem encode_mem_row : ∀ i : Instr, encode i &&& i.row.mask = i.row.pattern
  | .endSentinel => Laws.InItsRow.endSentinel
  | .cls => Laws.InItsRow.cls
  | .ret => Laws.InItsRow.ret
  | .sys nnn => Laws.InItsRow.sys nnn
  | .jp nnn => Laws.InItsRow.jp nnn
  | .call nnn => Laws.InItsRow.call nnn
  | .seImm x kk => Laws.InItsRow.seImm x kk
  | .sneImm x kk => Laws.InItsRow.sneImm x kk
  | .seReg x y => Laws.InItsRow.seReg x y
  | .ldImm x kk => Laws.InItsRow.ldImm x kk
  | .addImm x kk => Laws.InItsRow.addImm x kk
  | .ldReg x y => Laws.InItsRow.ldReg x y
  | .or x y => Laws.InItsRow.or x y
  | .and x y => Laws.InItsRow.and x y
  | .xor x y => Laws.InItsRow.xor x y
  | .addReg x y => Laws.InItsRow.addReg x y
  | .sub x y => Laws.InItsRow.sub x y
  | .shr x y => Laws.InItsRow.shr x y
  | .subn x y => Laws.InItsRow.subn x y
  | .shl x y => Laws.InItsRow.shl x y
  | .sneReg x y => Laws.InItsRow.sneReg x y
  | .ldI nnn => Laws.InItsRow.ldI nnn
  | .jpV0 nnn => Laws.InItsRow.jpV0 nnn
  | .rnd x kk => Laws.InItsRow.rnd x kk
  | .drw x y n => Laws.InItsRow.drw x y n
  | .skp x => Laws.InItsRow.skp x
  | .sknp x => Laws.InItsRow.sknp x
  | .ldVxDT x => Laws.InItsRow.ldVxDT x
  | .ldVxK x => Laws.InItsRow.ldVxK x
  | .ldDTVx x => Laws.InItsRow.ldDTVx x
  | .ldSTVx x => Laws.InItsRow.ldSTVx x
  | .addIVx x => Laws.InItsRow.addIVx x
  | .ldFVx x => Laws.InItsRow.ldFVx x
  | .ldBVx x => Laws.InItsRow.ldBVx x
  | .ldMemVx x => Laws.InItsRow.ldMemVx x
  | .ldVxMem x => Laws.InItsRow.ldVxMem x

/-- The fixed bits of three rows fill the word. -/
theorem eq_of_mask_full {i : Instr} (h : i.row.mask = 0xFFFF#16) :
    i = .endSentinel ∨ i = .cls ∨ i = .ret := by
  cases i with
  | endSentinel | cls | ret => simp
  | _ => simp [Instr.row] at h

/-! ### A word of a row is the encoding of an instruction of the row -/

/-- The instruction with its operands read from a word, at the places its format gives them. -/
def Instr.withOperandsOf (w : Word) : Instr → Instr
  | .endSentinel => .endSentinel
  | .cls => .cls
  | .ret => .ret
  | .sys _ => .sys (fieldNNN w)
  | .jp _ => .jp (fieldNNN w)
  | .call _ => .call (fieldNNN w)
  | .seImm _ _ => .seImm (fieldX w) (fieldKK w)
  | .sneImm _ _ => .sneImm (fieldX w) (fieldKK w)
  | .seReg _ _ => .seReg (fieldX w) (fieldY w)
  | .ldImm _ _ => .ldImm (fieldX w) (fieldKK w)
  | .addImm _ _ => .addImm (fieldX w) (fieldKK w)
  | .ldReg _ _ => .ldReg (fieldX w) (fieldY w)
  | .or _ _ => .or (fieldX w) (fieldY w)
  | .and _ _ => .and (fieldX w) (fieldY w)
  | .xor _ _ => .xor (fieldX w) (fieldY w)
  | .addReg _ _ => .addReg (fieldX w) (fieldY w)
  | .sub _ _ => .sub (fieldX w) (fieldY w)
  | .shr _ _ => .shr (fieldX w) (fieldY w)
  | .subn _ _ => .subn (fieldX w) (fieldY w)
  | .shl _ _ => .shl (fieldX w) (fieldY w)
  | .sneReg _ _ => .sneReg (fieldX w) (fieldY w)
  | .ldI _ => .ldI (fieldNNN w)
  | .jpV0 _ => .jpV0 (fieldNNN w)
  | .rnd _ _ => .rnd (fieldX w) (fieldKK w)
  | .drw _ _ _ => .drw (fieldX w) (fieldY w) (fieldN w)
  | .skp _ => .skp (fieldX w)
  | .sknp _ => .sknp (fieldX w)
  | .ldVxDT _ => .ldVxDT (fieldX w)
  | .ldVxK _ => .ldVxK (fieldX w)
  | .ldDTVx _ => .ldDTVx (fieldX w)
  | .ldSTVx _ => .ldSTVx (fieldX w)
  | .addIVx _ => .addIVx (fieldX w)
  | .ldFVx _ => .ldFVx (fieldX w)
  | .ldBVx _ => .ldBVx (fieldX w)
  | .ldMemVx _ => .ldMemVx (fieldX w)
  | .ldVxMem _ => .ldVxMem (fieldX w)

section
variable {w m p : Word} (h : w &&& m = p)
include h

theorem fieldOp_of_masked (hm : fieldOp m = 0xF#4) : fieldOp p = fieldOp w := by
  have hand : fieldOp (w &&& m) = fieldOp w &&& fieldOp m := BitVec.extractLsb'_and
  rw [← h, hand, hm]
  exact BitVec.and_allOnes

theorem fieldN_of_masked (hm : fieldN m = 0xF#4) : fieldN p = fieldN w := by
  have hand : fieldN (w &&& m) = fieldN w &&& fieldN m := BitVec.extractLsb'_and
  rw [← h, hand, hm]
  exact BitVec.and_allOnes

theorem fieldKK_of_masked (hm : fieldKK m = 0xFF#8) : fieldKK p = fieldKK w := by
  have hand : fieldKK (w &&& m) = fieldKK w &&& fieldKK m := BitVec.extractLsb'_and
  rw [← h, hand, hm]
  exact BitVec.and_allOnes

end

theorem row_withOperandsOf (w : Word) (i : Instr) : (i.withOperandsOf w).row = i.row := by
  cases i <;> rfl

section
variable {w : Word} {i : Instr} (h : w &&& i.row.mask = i.row.pattern)
include h

/-- One case for each format: the mask fixes the fields that are no operands. -/
theorem encode_withOperandsOf : encode (i.withOperandsOf w) = w := by
  cases i <;> simp only [encode, Instr.row, Instr.operandBits, Instr.withOperandsOf] at h ⊢
  case endSentinel | cls | ret => exact h.symm.trans BitVec.and_allOnes
  case sys | jp | call | ldI | jpV0 => exact packNNN_of_fields (fieldOp_of_masked h rfl) rfl
  case seImm | sneImm | ldImm | addImm | rnd =>
    exact packXKK_of_fields (fieldOp_of_masked h rfl) rfl rfl
  case drw => exact packXYN_of_fields (fieldOp_of_masked h rfl) rfl rfl (BitVec.zero_or ..)
  case skp | sknp | ldVxDT | ldVxK | ldDTVx | ldSTVx | addIVx | ldFVx | ldBVx | ldMemVx | ldVxMem =>
    exact packX_of_fields (fieldOp_of_masked h rfl) rfl (fieldKK_of_masked h rfl)
  all_goals exact packXYN_of_fields (fieldOp_of_masked h rfl) rfl rfl (fieldN_of_masked h rfl)

/-- A word of the row of SYS whose operand makes an ill-formed term is one of the three FIXED words;
every other word of a row is the encoding of a well-formed instruction. -/
theorem decodes_of_mem_row :
    ∃ j : Instr, decodeWord w = .ok j ∧
      (j.row = i.row ∨ ((∃ nnn, i = .sys nnn) ∧ (j = .endSentinel ∨ j = .cls ∨ j = .ret))) := by
  have henc := encode_withOperandsOf h
  by_cases hwf : (i.withOperandsOf w).wf = true
  · have hdec := decodeWord_encode _ hwf
    rw [henc] at hdec
    exact ⟨_, hdec, .inl (row_withOperandsOf w i)⟩
  · cases i with
    | sys nnn =>
      simp only [Instr.withOperandsOf] at henc hwf
      have hfixed : fieldNNN w = 0x000#12 ∨ fieldNNN w = 0x0E0#12 ∨ fieldNNN w = 0x0EE#12 := by
        by_contra hne
        simp_all [Instr.wf]
      rw [← henc]
      rcases hfixed with hn | hn | hn <;> rw [hn]
      · exact ⟨.endSentinel, rfl, .inr ⟨⟨nnn, rfl⟩, .inl rfl⟩⟩
      · exact ⟨.cls, rfl, .inr ⟨⟨nnn, rfl⟩, .inr (.inl rfl)⟩⟩
      · exact ⟨.ret, rfl, .inr ⟨⟨nnn, rfl⟩, .inr (.inr rfl)⟩⟩
    | _ => exact absurd rfl hwf

end

/-- Settles O7: a decoded word is the encoding of its instruction, which lies in its row, and a word
of a row decodes to what its operands make of the row's instruction. -/
theorem decoderAgreesWithTheOpcodeMap : Obligations.DecoderAgreesWithTheOpcodeMap := by
  intro w
  refine ⟨fun i h => ?_, fun i h => decodes_of_mem_row h⟩
  have hrow := encode_mem_row i
  rwa [encode_of_decodeWord h] at hrow

/-- Settles O9: a word decodes to one instruction, whose row is that of both unless one of the two is
SYS and the word one of the three FIXED ones. -/
theorem opcodeRowsOverlapOnlyAtSys : Obligations.OpcodeRowsOverlapOnlyAtSys := by
  intro i j w hi hj
  have hfixed {a b : Instr} (ha : a = .endSentinel ∨ a = .cls ∨ a = .ret) (hab : a.row = b.row) :
      b = .endSentinel ∨ b = .cls ∨ b = .ret :=
    eq_of_mask_full (by rw [← hab]; rcases ha with rfl | rfl | rfl <;> rfl)
  obtain ⟨a, ha, hai⟩ := decodes_of_mem_row hi
  obtain ⟨b, hb, haj⟩ := decodes_of_mem_row hj
  obtain rfl : a = b := Except.ok.inj (ha.symm.trans hb)
  rcases hai with hai | ⟨hsys, hai⟩
  · rcases haj with haj | ⟨hsys, haj⟩
    · exact .inl (hai.symm.trans haj)
    · exact .inr (.inr ⟨hsys, hfixed haj hai⟩)
  · rcases haj with haj | ⟨⟨_, rfl⟩, -⟩
    · exact .inr (.inl ⟨hsys, hfixed hai haj⟩)
    · obtain ⟨_, rfl⟩ := hsys
      exact .inl rfl

/-! ### The Illegal words -/

/-- The list of 30_encoding.md R67. -/
def ListedIllegal (w : Word) : Prop :=
  (fieldOp w = 0x5#4 ∧ fieldN w ≠ 0x0#4) ∨
  (fieldOp w = 0x8#4 ∧ fieldN w ∈ [0x8#4, 0x9#4, 0xA#4, 0xB#4, 0xC#4, 0xD#4, 0xF#4]) ∨
  (fieldOp w = 0x9#4 ∧ fieldN w ≠ 0x0#4) ∨
  (fieldOp w = 0xE#4 ∧ fieldKK w ∉ [0x9E#8, 0xA1#8]) ∨
  (fieldOp w = 0xF#4 ∧ fieldKK w ∉
    [0x07#8, 0x0A#8, 0x15#8, 0x18#8, 0x1E#8, 0x29#8, 0x33#8, 0x55#8, 0x65#8])

section
variable {w : Word} {e : DecodeError}

theorem decodeGroup8_illegal_iff : decodeGroup8 w = .error (.illegal w) ↔
    fieldN w ∈ [0x8#4, 0x9#4, 0xA#4, 0xB#4, 0xC#4, 0xD#4, 0xF#4] := by
  unfold decodeGroup8
  split
  case h_10 =>
    simp only [true_iff]
    generalize fieldN w = n at *
    decide +revert
  all_goals
    rename_i hn
    simp [hn]

theorem decodeGroupE_illegal_iff :
    decodeGroupE w = .error (.illegal w) ↔ fieldKK w ∉ [0x9E#8, 0xA1#8] := by
  unfold decodeGroupE
  split <;> simp_all

theorem decodeGroupF_illegal_iff : decodeGroupF w = .error (.illegal w) ↔
    fieldKK w ∉ [0x07#8, 0x0A#8, 0x15#8, 0x18#8, 0x1E#8, 0x29#8, 0x33#8, 0x55#8, 0x65#8] := by
  unfold decodeGroupF
  split <;> simp_all

theorem decodeWord_illegal_iff : decodeWord w = .error (.illegal w) ↔ ListedIllegal w := by
  unfold decodeWord ListedIllegal
  split
  case h_9 hop => simp [hop, decodeGroup8_illegal_iff]
  case h_15 hop => simp [hop, decodeGroupE_illegal_iff]
  case h_16 =>
    have hop : fieldOp w = 0xF#4 := by
      generalize fieldOp w = op at *
      decide +revert
    simp [hop, decodeGroupF_illegal_iff]
  all_goals
    rename_i hop
    simp [hop]

theorem eq_illegal_of_decodeGroup8 (h : decodeGroup8 w = .error e) : e = .illegal w := by
  unfold decodeGroup8 at h
  split at h <;> cases h
  rfl

theorem eq_illegal_of_decodeGroupE (h : decodeGroupE w = .error e) : e = .illegal w := by
  unfold decodeGroupE at h
  split at h <;> cases h
  rfl

theorem eq_illegal_of_decodeGroupF (h : decodeGroupF w = .error e) : e = .illegal w := by
  unfold decodeGroupF at h
  split at h <;> cases h
  rfl

/-- The decoder rejects a word as Illegal and for no other reason. -/
theorem eq_illegal_of_decodeWord (h : decodeWord w = .error e) : e = .illegal w := by
  unfold decodeWord at h
  split at h
  case h_6 | h_10 =>
    split at h <;> cases h
    rfl
  case h_9 => exact eq_illegal_of_decodeGroup8 h
  case h_15 => exact eq_illegal_of_decodeGroupE h
  case h_16 => exact eq_illegal_of_decodeGroupF h
  all_goals cases h

end

/-- Settles O8: the decoder rejects exactly the listed words, and a word it does not reject it
decodes. -/
theorem illegalWordsAreTheListedOnes : Obligations.IllegalWordsAreTheListedOnes := by
  intro w
  refine ⟨decodeWord_illegal_iff.mpr, decodeWord_illegal_iff.mp, ?_⟩
  cases h : decodeWord w with
  | error e => exact .inl (by rw [eq_illegal_of_decodeWord h])
  | ok i => exact .inr ⟨i, rfl⟩

end Sys2Proof
end

section
/-! PROOFS. Reset: the registers, the default reset and the invariant (70_reset_and_hazards.md R220,
R221). -/

namespace Sys2Proof.Machine

open Sys2Proof.Safety

/-- Settles O2: every register is a literal of `State.resetWith`. -/
theorem resetRegisterValues : Obligations.ResetRegisterValues := by
  intro font image
  have hv (r : Reg) : (State.resetWith font image).getV r = 0#8 := Vector.getElem_replicate ..
  have hstack (k : Fin 16) : (State.resetWith font image).stack[k.val] = 0#16 :=
    Vector.getElem_replicate ..
  exact ⟨rfl, rfl, rfl, rfl, rfl, hv, hstack, Framebuffer.cell_blank, rfl, rfl, rfl, rfl, rfl, rfl,
    rfl⟩

end Sys2Proof.Machine
end

section
/-! PROOFS. The canonical form of memory determines the list (20_memory.md R40), and with it the list
of the default reset. -/

namespace Sys2Proof.Machine

open Sys2Proof.Safety

theorem Memory.wfFrom_cons {m : Memory} {lo a : Nat} {b : Byte} :
    Memory.wfFrom lo ((a, b) :: m) = true ↔
      lo ≤ a ∧ a < 4096 ∧ b ≠ unlistedByte a ∧ m.wfFrom (a + 1) = true := by
  simp [Memory.wfFrom, and_assoc]

/-- An address below those of a canonical list, or above all of memory, is not listed. -/
theorem Memory.get_of_not_listed {m : Memory} {lo a : Nat} (hm : m.wfFrom lo = true)
    (ha : a < lo ∨ 4096 ≤ a) : m.get a = unlistedByte a := by
  induction m generalizing lo with
  | nil => rfl
  | cons c m ih =>
    obtain ⟨k, b⟩ := c
    obtain ⟨hlo, hk, -, hm⟩ := Memory.wfFrom_cons.mp hm
    rw [Memory.get, if_neg (by omega)]
    exact ih hm (by omega)

/-- The first address listed is below no address of a canonical list that reads alike. -/
theorem Memory.head_le_of_get_eq {m m' : Memory} {lo lo' a a' : Nat} {b b' : Byte}
    (hm : Memory.wfFrom lo ((a, b) :: m) = true) (hm' : Memory.wfFrom lo' ((a', b') :: m') = true)
    (h : ∀ k, Memory.get ((a, b) :: m) k = Memory.get ((a', b') :: m') k) : a' ≤ a := by
  obtain ⟨-, -, hb, -⟩ := Memory.wfFrom_cons.mp hm
  obtain ⟨-, ha', hb', htail'⟩ := Memory.wfFrom_cons.mp hm'
  by_contra hlt
  have hread := Memory.get_of_not_listed (a := a)
    (Memory.wfFrom_cons.mpr ⟨le_refl a', ha', hb', htail'⟩) (.inl (by omega))
  rw [← h a, Memory.get, if_pos rfl] at hread
  exact hb hread

/-- The heads of two lists that read alike are equal, for the lower of two addresses would be listed
in one list alone; so are the tails, which list neither that address nor one below it. -/
theorem Memory.eq_of_get_eq {m m' : Memory} {lo lo' : Nat} (hm : m.wfFrom lo = true)
    (hm' : m'.wfFrom lo' = true) (h : ∀ k, m.get k = m'.get k) : m = m' := by
  induction m generalizing m' lo lo' with
  | nil =>
    cases m' with
    | nil => rfl
    | cons c m' =>
      obtain ⟨-, -, hb, -⟩ := Memory.wfFrom_cons.mp hm'
      have hread := h c.1
      rw [Memory.get, Memory.get, if_pos rfl] at hread
      exact absurd hread.symm hb
  | cons c m ih =>
    obtain ⟨a, b⟩ := c
    obtain ⟨-, -, hb, htail⟩ := Memory.wfFrom_cons.mp hm
    cases m' with
    | nil =>
      have hread := h a
      rw [Memory.get, Memory.get, if_pos rfl] at hread
      exact absurd hread hb
    | cons c' m' =>
      obtain ⟨a', b'⟩ := c'
      obtain ⟨-, -, -, htail'⟩ := Memory.wfFrom_cons.mp hm'
      obtain rfl : a = a' := Nat.le_antisymm
        (Memory.head_le_of_get_eq hm' hm fun k => (h k).symm) (Memory.head_le_of_get_eq hm hm' h)
      obtain rfl : b = b' := by simpa [Memory.get] using h a
      have htails (k : Nat) : Memory.get m k = Memory.get m' k := by
        by_cases hk : a = k
        · have hlt : k < a + 1 := by omega
          rw [Memory.get_of_not_listed htail (.inl hlt), Memory.get_of_not_listed htail' (.inl hlt)]
        · simpa [Memory.get, hk] using h k
      rw [ih htail htail' htails]

/-- Settles O50: a masked read is a read of every address below 4096, and no canonical list has one
above. -/
theorem memoryFormIsUnique : Obligations.MemoryFormIsUnique := by
  intro m m' hm hm' h
  refine Memory.eq_of_get_eq hm hm' fun k => ?_
  by_cases hk : k < 4096
  · have hread := h k
    rwa [Memory.read, Memory.read, Nat.mod_eq_of_lt hk] at hread
  · rw [Memory.get_of_not_listed hm (.inr (Nat.le_of_not_lt hk)),
      Memory.get_of_not_listed hm' (.inr (Nat.le_of_not_lt hk))]

/-! ### The default reset -/

theorem Memory.read_afterReset_default {a : Nat} (ha : a < 4096) :
    (Memory.afterReset Config.font Config.emptyImage).read a = unlistedByte a := by
  by_cases hfont : a < 80
  · rw [Memory.read_afterReset_font _ _ a hfont, unlistedByte, if_pos hfont]
    exact (List.getElem_eq_getD 0#8)
  · rw [Memory.read_afterReset_zero _ _ (by omega) ha (by simp [Config.emptyImage]; omega),
      unlistedByte_of_font_end_le (by omega)]

/-- Settles O3: the memory written at the default reset reads as the empty list does, and both are
canonical. -/
theorem resetIsTheDefaultReset : Obligations.ResetIsTheDefaultReset := by
  have hmem : Memory.afterReset Config.font Config.emptyImage = [] := by
    refine memoryFormIsUnique _ _ (Memory.wf_afterReset _ _) rfl fun a => ?_
    have ha : a % 4096 < 4096 := Nat.mod_lt a (by decide)
    rw [Memory.read_congr _ (Nat.mod_mod a 4096).symm, Memory.read_afterReset_default ha]
    rfl
  unfold Obligations.ResetIsTheDefaultReset State.reset
  rw [← hmem]
  rfl

/-! ### The invariant -/

theorem inv_resetWith (font : Font) (image : Image) {cpf : Nat} (h : 1 ≤ cpf) :
    Inv cpf (State.resetWith font image) where
  mem_wf := Memory.wf_afterReset font image
  cause_iff := by simp [State.resetWith]
  cyc_lt := h
  not_both := by simp [State.resetWith]
  closed_at_boundary := by simp [State.resetWith]
  presented_iff := by simp [State.resetWith]

/-- Settles O4. The default reset is one of the resets. -/
theorem resetMeetsTheInvariant : Obligations.ResetMeetsTheInvariant := by
  refine ⟨fun font image _ h => inv_resetWith font image h, ?_⟩
  rw [resetIsTheDefaultReset]
  exact inv_resetWith _ _ (by decide)

end Sys2Proof.Machine
end

section
/-! PROOFS. The jump with offset, CALL and RET (41_control_transfer.md R101, R103, R108), and the
halting encodings (40_execution_cycle.md R96, R97). -/

namespace Sys2Proof.Machine

open Sys2Proof.Safety

/-! ### The frames of a halt and of a stack move -/

section
variable (s : State)

theorem State.onlyHalt_raiseHalt (c : Cause) : OnlyHalt c s (s.raiseHalt c) := ⟨rfl, rfl, rfl⟩

theorem State.onlyStack_pushAt_setPc (k : Fin 16) (w target : Word) :
    OnlyStack s ((s.pushAt k w).setPc target) := by
  obtain ⟨⟨hi, hmem, -, htimers, hdisplay, hrun⟩, hdraws⟩ := KeepsAllButRegs.refl s
  exact ⟨fun _ _ => rfl, hi, hmem, htimers, hdisplay, hrun, hdraws⟩

theorem State.onlyStack_popTo_setPc (k : Fin 16) (target : Word) :
    OnlyStack s ((s.popTo k).setPc target) := by
  obtain ⟨⟨hi, hmem, -, htimers, hdisplay, hrun⟩, hdraws⟩ := KeepsAllButRegs.refl s
  exact ⟨fun _ _ => rfl, hi, hmem, htimers, hdisplay, hrun, hdraws⟩

/-! ### What the executes answer -/

theorem exec_endSentinel : exec .endSentinel s = .next (s.raiseHalt .endSentinel) := rfl

theorem exec_sys (nnn : Addr) : exec (.sys nnn) s = .next (s.raiseHalt .unsupportedSyscall) := rfl

theorem exec_jpV0 (nnn : Addr) :
    exec (.jpV0 nnn) s = .next (s.setPc (zextAddr nnn + zextByte (s.getV 0))) := rfl

variable {s}

theorem exec_call_of_not_full {nnn : Addr} (h : s.sp.val < 16) :
    exec (.call nnn) s = .next ((s.pushAt ⟨s.sp.val, h⟩ s.pc).setPc (zextAddr nnn)) := dif_pos h

theorem exec_call_of_full {nnn : Addr} (h : s.sp.val = 16) :
    exec (.call nnn) s = .next (s.raiseHalt .stackOverflow) := dif_neg (by omega)

theorem exec_ret_of_not_empty {k : Fin 16} (h : s.sp.val = k.val + 1) :
    exec .ret s = .next ((s.popTo k).setPc (s.stack[k.val] + 2#16)) := by
  simp [exec, execRet, h]

theorem exec_ret_of_empty (h : s.sp.val = 0) :
    exec .ret s = .next (s.raiseHalt .stackUnderflow) := dif_pos h

end

/-- Settles O16: both executes raise a halt, and no more. -/
theorem endAndSysHalt : Obligations.EndAndSysHalt := fun s nnn =>
  ⟨⟨_, exec_endSentinel s, s.onlyHalt_raiseHalt _, rfl⟩,
    ⟨_, exec_sys s nnn, s.onlyHalt_raiseHalt _, rfl⟩⟩

/-- Settles O31: the sum of a 12-bit and an 8-bit number fits in the 16 bits of PC. -/
theorem jumpWithOffsetAddsV0 : Obligations.JumpWithOffsetAddsV0 := by
  intro s nnn
  refine ⟨_, exec_jpV0 s nnn, s.onlyPc_setPc _, ?_⟩
  have hnnn := nnn.isLt
  have hv := (s.getV 0).isLt
  rw [State.setPc_pc, BitVec.toNat_add, zextAddr_toNat, zextByte_toNat, Nat.mod_eq_of_lt (by omega)]

/-- Settles O32: the entry pushed is the one that SP named. -/
theorem callPushesItsOwnAddress : Obligations.CallPushesItsOwnAddress := by
  intro s nnn h
  refine ⟨_, exec_call_of_not_full h, s.onlyStack_pushAt_setPc _ _ _, zextAddr_toNat nnn, rfl,
    fun k => ?_⟩
  simp [Vector.getElem_set, eq_comm]

/-- Settles O33: the execute on a full stack raises a halt, and no more. -/
theorem callOnAFullStackHalts : Obligations.CallOnAFullStackHalts := fun s _ h =>
  ⟨_, exec_call_of_full h, s.onlyHalt_raiseHalt _, rfl⟩

/-- Settles O34: the execute reads the entry below SP and moves SP and PC alone. -/
theorem returnPopsTheCallAddress : Obligations.ReturnPopsTheCallAddress := fun s k h =>
  ⟨_, exec_ret_of_not_empty h, s.onlyStack_popTo_setPc k _, rfl, rfl, rfl⟩

/-- Settles O35: the execute on an empty stack raises a halt, and no more. -/
theorem returnOnAnEmptyStackHalts : Obligations.ReturnOnAnEmptyStackHalts := fun s h =>
  ⟨_, exec_ret_of_empty h, s.onlyHalt_raiseHalt _, rfl⟩

/-- Settles O36: the top entry that RET reads is the one CALL wrote, and RET writes none. -/
theorem callThenReturn : Obligations.CallThenReturn := by
  intro s t u nnn h ht hsp hstack
  rw [exec_call_of_not_full h] at ht
  cases ht
  rw [State.setPc_sp, State.pushAt_sp] at hsp
  rw [State.setPc_stack, State.pushAt_stack] at hstack
  have hret := exec_ret_of_not_empty (s := u) (k := ⟨s.sp.val, h⟩) (by rw [hsp]; rfl)
  refine ⟨_, hret, ?_, rfl, fun k hk => ?_⟩
  · simp [hstack]
  · have hne : s.sp.val ≠ k.val := by omega
    simp [hstack, hne]

end Sys2Proof.Machine
end

section
/-! PROOFS. The instructions that leave a result and the flag VF (42_alu.md R126 to R130), and RND
(R135). -/

namespace Sys2Proof.Machine

open Sys2Proof.Safety

/-! ### A result and a flag -/

/-- What an instruction does that writes a result to `Vx` and then a flag to VF, and goes on to the
next one. The result is lost when `x` is F. -/
theorem exec_writes_result_and_flag {s : State} {i : Instr} {x : Reg} {res flag : Byte}
    (h : exec i s = .next (s.setResultAndFlag x res flag).advance) :
    ∃ t, exec i s = .next t ∧ OnlyRegs [x, 15] s t ∧ t.pc = s.pc + 2#16 ∧
      (x ≠ 15 → t.getV x = res) ∧ t.getV 15 = flag := by
  have hregs : OnlyRegs [x, 15] s (s.setResultAndFlag x res flag).advance :=
    (((OnlyRegs.refl [x, 15] s).setV (by simp) res).setV (by simp [regVF]) flag).advance
  refine ⟨_, h, hregs, rfl, fun hx => ?_, ?_⟩
  · have hne : regVF ≠ x := Ne.symm hx
    simp [hne]
  · simp [regVF]

theorem lowBitFlag_toNat (a : Byte) : (lowBitFlag a).toNat = a.toNat % 2 := by
  have hbit : a.getLsbD 0 = decide (a.toNat % 2 = 1) := Nat.testBit_zero ..
  rw [lowBitFlag, flagByte, hbit]
  rcases Nat.mod_two_eq_zero_or_one a.toNat with h | h <;> simp [h]

theorem highBitFlag_toNat (a : Byte) : (highBitFlag a).toNat = a.toNat / 128 := by
  have hbit : a.getLsbD 7 = decide (128 ≤ a.toNat) := BitVec.msb_eq_decide a
  have ha := a.isLt
  rw [highBitFlag, flagByte, hbit]
  by_cases h : 128 ≤ a.toNat <;> simp [h] <;> omega

/-- The wrapped difference of two bytes. -/
theorem toNat_sub_emod (a b : Byte) : ((a - b).toNat : Int) = (a.toNat - b.toNat : Int) % 256 := by
  have ha := a.isLt
  have hb := b.isLt
  rw [BitVec.toNat_sub]
  omega

/-! ### What the executes answer -/

section
variable (s : State) (x y : Reg)

theorem exec_addReg : exec (.addReg x y) s = .next (s.setResultAndFlag x
    (sumLow (s.getV x) (s.getV y)) (carryFlag (s.getV x) (s.getV y))).advance := rfl

theorem exec_sub : exec (.sub x y) s = .next (s.setResultAndFlag x
    (s.getV x - s.getV y) (greaterFlag (s.getV x) (s.getV y))).advance := rfl

theorem exec_subn : exec (.subn x y) s = .next (s.setResultAndFlag x
    (s.getV y - s.getV x) (greaterFlag (s.getV y) (s.getV x))).advance := rfl

theorem exec_shr : exec (.shr x y) s = .next (s.setResultAndFlag x
    (s.getV x >>> 1) (lowBitFlag (s.getV x))).advance := rfl

theorem exec_shl : exec (.shl x y) s = .next (s.setResultAndFlag x
    (s.getV x <<< 1) (highBitFlag (s.getV x))).advance := rfl

theorem exec_rnd (kk : Byte) :
    exec (.rnd x kk) s = .next (s.consumeRnd.setV x (s.rndByte &&& kk)).advance := rfl

end

/-- Settles O39: the low half of the 9-bit sum is the result and its high bit the carry. -/
theorem addSetsTheCarry : Obligations.AddSetsTheCarry := by
  intro s x y
  obtain ⟨t, ht, hregs, hpc, hx, hflag⟩ := exec_writes_result_and_flag (exec_addReg s x y)
  refine ⟨t, ht, hregs, hpc, fun hne => ?_, by rw [hflag, carryFlag_eq]⟩
  rw [hx hne, sumLow_eq, BitVec.toNat_add]

/-- Settles O40: SUB and SUBN are one subtraction with the operands exchanged. -/
theorem subtractSetsTheFlag : Obligations.SubtractSetsTheFlag := by
  intro s x y
  constructor
  · obtain ⟨t, ht, hregs, hpc, hx, hflag⟩ := exec_writes_result_and_flag (exec_sub s x y)
    refine ⟨t, ht, hregs, hpc, fun hne => ?_, by rw [hflag, greaterFlag_eq]⟩
    rw [hx hne, toNat_sub_emod]
  · obtain ⟨t, ht, hregs, hpc, hx, hflag⟩ := exec_writes_result_and_flag (exec_subn s x y)
    refine ⟨t, ht, hregs, hpc, fun hne => ?_, by rw [hflag, greaterFlag_eq]⟩
    rw [hx hne, toNat_sub_emod]

/-- Settles O41: a shift by one bit halves or doubles, and the bit lost is the remainder or the
carry. -/
theorem shiftSetsTheFlag : Obligations.ShiftSetsTheFlag := by
  intro s x y
  constructor
  · obtain ⟨t, ht, hregs, hpc, hx, hflag⟩ := exec_writes_result_and_flag (exec_shr s x y)
    refine ⟨t, ht, hregs, hpc, fun hne => ?_, by rw [hflag, lowBitFlag_toNat]⟩
    rw [hx hne, BitVec.toNat_ushiftRight, Nat.shiftRight_eq_div_pow, Nat.pow_one]
  · obtain ⟨t, ht, hregs, hpc, hx, hflag⟩ := exec_writes_result_and_flag (exec_shl s x y)
    refine ⟨t, ht, hregs, hpc, fun hne => ?_, by rw [hflag, highBitFlag_toNat]⟩
    rw [hx hne, BitVec.toNat_shiftLeft, Nat.shiftLeft_eq, Nat.pow_one]

/-! ### The draw of a random byte -/

/-- Settles O42: the draw is consumed first, which writes nothing else, and then one register is
written. -/
theorem randomMasksTheDraw : Obligations.RandomMasksTheDraw := by
  intro s x kk
  obtain ⟨hregs, hframe, -⟩ :=
    ((OnlyRegs.refl [x] s.consumeRnd).setV (List.mem_singleton_self x) (s.rndByte &&& kk)).advance
  have hx : (s.consumeRnd.setV x (s.rndByte &&& kk)).advance.getV x = s.rndByte &&& kk := by simp
  refine ⟨_, exec_rnd s x kk, hregs, hframe, rfl, fun r q h => ?_, fun h => ?_, rfl, ?_⟩
  · exact ⟨by rw [hx, State.rndByte, h, List.headD_cons], by simp [h]⟩
  · exact ⟨by rw [hx, State.rndByte, h, List.headD_nil], by simp [h]⟩
  · rw [hx, BitVec.and_assoc, BitVec.and_not_self]
    exact BitVec.and_zero

end Sys2Proof.Machine
end

section
/-! PROOFS. Index arithmetic and the block transfers (43_index_memory.md R142, R144, R148, R150). -/

namespace Sys2Proof.Machine

open Sys2Proof.Safety

/-! ### What the executes answer -/

section
variable (s : State) (x : Reg)

theorem exec_addIVx :
    exec (.addIVx x) s = .next (s.setI (s.i + zextByte (s.getV x))).advance := rfl

theorem exec_ldFVx :
    exec (.ldFVx x) s = .next (s.setI (zextByte (s.getV x) * 5#16)).advance := rfl

theorem exec_ldMemVx :
    exec (.ldMemVx x) s = .next (s.storeBytes s.blockBase (s.firstRegs x)).advance := rfl

theorem exec_ldVxMem :
    exec (.ldVxMem x) s = .next (s.loadRegs s.blockBase (x.val + 1)).advance := rfl

end

/-- Settles O44: the sum is taken modulo 2^16, and five times a byte fits in 16 bits. -/
theorem indexArithmetic : Obligations.IndexArithmetic := by
  intro s x
  constructor
  · obtain ⟨t, ht, honly, hpc, hi⟩ := exec_writes_index (exec_addIVx s x)
    exact ⟨t, ht, honly, hpc, by rw [hi, BitVec.toNat_add, zextByte_toNat]⟩
  · obtain ⟨t, ht, honly, hpc, hi⟩ := exec_writes_index (exec_ldFVx s x)
    have hv := (s.getV x).isLt
    refine ⟨t, ht, honly, hpc, ?_⟩
    rw [hi, BitVec.toNat_mul, zextByte_toNat]
    exact Nat.mod_eq_of_lt (by simp; omega)

/-! ### Block store and block load -/

/-- A block store answers a state in which byte `k` of the block is `Vk`. -/
theorem exec_ldMemVx_spec (s : State) (x : Reg) :
    ∃ t, exec (.ldMemVx x) s = .next t ∧ OnlyMemory s.blockBase (x.val + 1) s t ∧
      t.pc = s.pc + 2#16 ∧ ∀ k : Reg, k.val ≤ x.val → t.memRead (s.blockBase + k.val) = s.getV k := by
  have hx := x.isLt
  have hlen := s.firstRegs_length x
  obtain ⟨t, ht, honly, hpc, hread⟩ := exec_stores_block (exec_ldMemVx s x) (by omega)
  rw [hlen] at honly
  refine ⟨t, ht, honly, hpc, fun k hk => ?_⟩
  rw [hread k.val (by omega), s.firstRegs_getElem x k.val _ k.isLt]

/-- Settles O46, by the rule of a stored block: the block is the list of V0..Vx. -/
theorem blockStoreWritesTheRegisters : Obligations.BlockStoreWritesTheRegisters := exec_ldMemVx_spec

/-- Settles O47: the load writes registers alone, and each by the law of `State.loadRegs`. -/
theorem blockLoadReadsTheBytes : Obligations.BlockLoadReadsTheBytes := by
  intro s x
  obtain ⟨v, hv⟩ := s.loadRegs_frame s.blockBase (x.val + 1)
  have hkeeps : KeepsAllButRegs s (s.loadRegs s.blockBase (x.val + 1)).advance := by
    rw [hv]
    exact KeepsAllButRegs.refl s
  have hpc : (s.loadRegs s.blockBase (x.val + 1)).pc = s.pc := by rw [hv]
  refine ⟨_, exec_ldVxMem s x, hkeeps, by simp [hpc], fun r => ?_⟩
  rw [State.advance_eq, State.getV_setPc, s.getV_loadRegs _ _ x.isLt]
  simp only [Nat.lt_succ_iff]

/-- Settles O48: each register loaded is the byte that the store put at its place. -/
theorem blockRoundTrip : Obligations.BlockRoundTrip := by
  intro s t u x ht hi hmem
  obtain ⟨t', ht', ⟨-, hti, -⟩, -, hstored⟩ := exec_ldMemVx_spec s x
  cases ht.symm.trans ht'
  obtain ⟨r, hr, -, -, hloaded⟩ := blockLoadReadsTheBytes u x
  refine ⟨r, hr, fun k hk => ?_⟩
  have hbase : u.blockBase = s.blockBase := by rw [State.blockBase, hi, hti, State.blockBase]
  rw [hloaded k, if_pos hk, hmem, hbase, hstored k hk]

/-- Settles O49: the two halves of the next fetch are two bytes of the block. -/
theorem storeIsSeenByTheNextFetch : Obligations.StoreIsSeenByTheNextFetch := by
  intro s t x k k' ht hk' hx hpc
  obtain ⟨t', ht', -, -, hstored⟩ := exec_ldMemVx_spec s x
  cases ht.symm.trans ht'
  have hhigh : t.memRead t.pc.toNat = s.getV k :=
    (Memory.read_congr t.mem hpc).trans (hstored k (by omega))
  have hlow : t.memRead (t.pc.toNat + 1) = s.getV k' :=
    (Memory.read_congr t.mem (by omega)).trans (hstored k' hx)
  rw [State.fetchWord, hhigh, hlow]

end Sys2Proof.Machine
end

section
/-! PROOFS. The sprite draw (44_display.md R161 to R165). -/

namespace Sys2Proof.Machine

open Sys2Proof.Safety

/-! ### What a draw answers -/

/-- The picture that DRW Vx,Vy,n makes of the framebuffer of `s`, and whether it collided. -/
def State.drawing (s : State) (x y : Reg) (n : Nibble) : Drawing :=
  Drawing.plotRows ⟨s.fb, false⟩ s.mem s.blockBase (s.getV y).toNat (s.getV x).toNat n.toNat

section
variable (s : State) (x y : Reg) (n : Nibble)

theorem exec_drw : exec (.drw x y n) s = .next ((s.setFB (s.drawing x y n).fb).setV regVF
    (flagByte (s.drawing x y n).collided)).advance := rfl

/-- The cell in row `r`, column `c` is under a set bit of the sprite. -/
def State.Covers (r c : Nat) : Prop :=
  SpriteCovers s s.blockBase (s.getV y).toNat (s.getV x).toNat n.toNat r c

variable {s x y n} in
theorem State.drawing_cell_of_covers {r c : Nat} (hr : r < 32) (hc : c < 64)
    (h : s.Covers x y n r c) : (s.drawing x y n).fb.cell r c = !s.fb.cell r c := by
  obtain ⟨hYr, hrn, hXc, hc8, hbit⟩ := h
  have hbit : spriteBit (s.mem.read (s.blockBase + (r - (s.getV y).toNat)))
      (c - (s.getV x).toNat) = true := hbit
  rw [State.drawing, Drawing.plotRows_cell, if_pos ⟨hYr, hrn, hXc, hc8, hr, hc⟩, hbit,
    Bool.xor_true]

variable {s x y n} in
theorem State.drawing_cell_of_not_covers {r c : Nat} (h : ¬s.Covers x y n r c) :
    (s.drawing x y n).fb.cell r c = s.fb.cell r c := by
  rw [State.drawing, Drawing.plotRows_cell]
  split
  case isFalse => rfl
  case isTrue hin =>
    obtain ⟨hYr, hrn, hXc, hc8, -⟩ := hin
    have hbit : spriteBit (s.mem.read (s.blockBase + (r - (s.getV y).toNat)))
        (c - (s.getV x).toNat) = false :=
      Bool.eq_false_iff.mpr fun hbit => h ⟨hYr, hrn, hXc, hc8, hbit⟩
    rw [hbit, Bool.xor_false]

/-- Row and column of a sprite bit against row and column of the cell it is over. -/
theorem State.drawing_collided : (s.drawing x y n).collided = true ↔
    ∃ r c, r < 32 ∧ c < 64 ∧ s.fb.cell r c = true ∧ s.Covers x y n r c := by
  rw [State.drawing, Drawing.plotRows_collided]
  constructor
  · rintro (h | ⟨row, col, hrow, hcol, hbit, hcell⟩)
    · cases h
    · have hgrid : (s.getV y).toNat + row < 32 ∧ (s.getV x).toNat + col < 64 := by
        by_contra hout
        rw [Framebuffer.cell_outside _ hout] at hcell
        cases hcell
      refine ⟨_, _, hgrid.1, hgrid.2, hcell, by omega, by omega, by omega, by omega, ?_⟩
      rwa [Nat.add_sub_cancel_left, Nat.add_sub_cancel_left]
  · rintro ⟨r, c, -, -, hcell, hYr, hrn, hXc, hc8, hbit⟩
    refine .inr ⟨r - (s.getV y).toNat, c - (s.getV x).toNat, by omega, by omega, hbit, ?_⟩
    rwa [Nat.add_sub_cancel' hYr, Nat.add_sub_cancel' hXc]

theorem State.onlyDisplay_setFB_setV_advance (fb : Framebuffer) (b : Byte) :
    OnlyDisplay [regVF] s ((s.setFB fb).setV regVF b).advance := by
  obtain ⟨hregs, ⟨hi, hmem, hstack, htimers, -, hrun⟩, hdraws⟩ :=
    ((OnlyRegs.refl [regVF] (s.setFB fb)).setV (List.mem_singleton_self regVF) b).advance
  exact ⟨hregs, hi, hmem, hstack, htimers, hrun, hdraws⟩

theorem exec_drw_spec : ∃ t, exec (.drw x y n) s = .next t ∧ OnlyDisplay [15] s t ∧
    t.pc = s.pc + 2#16 ∧ t.fb = (s.drawing x y n).fb ∧
    t.getV 15 = flagByte (s.drawing x y n).collided :=
  ⟨_, exec_drw s x y n, s.onlyDisplay_setFB_setV_advance _ _, rfl, rfl, by simp [regVF]⟩

end

/-- Settles O52: the cells by the law of the drawing, and the flag by its collision. -/
theorem drawFlipsTheUnclippedCells : Obligations.DrawFlipsTheUnclippedCells := by
  intro s x y n
  obtain ⟨t, ht, honly, hpc, hfb, hflag⟩ := exec_drw_spec s x y n
  refine ⟨t, ht, honly, hpc, fun r c hr hc => ⟨fun h => ?_, fun h => ?_⟩, fun h => ?_, fun h => ?_⟩
  · rw [hfb, State.drawing_cell_of_covers hr hc h]
  · rw [hfb, State.drawing_cell_of_not_covers h]
  · rw [hflag, (s.drawing_collided x y n).mpr h]
    rfl
  · rw [hflag, Bool.eq_false_iff.mpr fun hcol => h ((s.drawing_collided x y n).mp hcol)]
    rfl

/-! ### A second draw -/

/-- The cells covered depend on I, memory and the two coordinates alone. -/
theorem State.covers_congr {s t : State} {x y : Reg} (n : Nibble) (hi : t.i = s.i)
    (hmem : KeepsMemory s t) (hx : t.getV x = s.getV x) (hy : t.getV y = s.getV y) (r c : Nat) :
    t.Covers x y n r c ↔ s.Covers x y n r c := by
  simp only [State.Covers, SpriteCovers, State.blockBase, hi, hmem _, hx, hy]

/-- Settles O53: the second draw covers the cells of the first, so it flips each of them back, and it
collides on those that the first has set. -/
theorem drawTwiceRestoresTheFramebuffer : Obligations.DrawTwiceRestoresTheFramebuffer := by
  intro s t x y n ht hx hy
  obtain ⟨t', ht', ⟨-, hi, hmem, -⟩, -, hfb, -⟩ := exec_drw_spec s x y n
  cases ht.symm.trans ht'
  obtain ⟨u, hu, -, -, hufb, hflag⟩ := exec_drw_spec t x y n
  have hcovers := State.covers_congr n hi hmem hx hy
  have hflip {r c : Nat} (hr : r < 32) (hc : c < 64) (h : s.Covers x y n r c) :
      t.fb.cell r c = !s.fb.cell r c := by
    rw [hfb, State.drawing_cell_of_covers hr hc h]
  refine ⟨u, hu, fun r c => ?_, ?_⟩
  · by_cases hgrid : r < 32 ∧ c < 64
    · by_cases h : s.Covers x y n r c
      · rw [hufb, State.drawing_cell_of_covers hgrid.1 hgrid.2 ((hcovers r c).mpr h),
          hflip hgrid.1 hgrid.2 h, Bool.not_not]
      · rw [hufb, State.drawing_cell_of_not_covers (mt (hcovers r c).mp h), hfb,
          State.drawing_cell_of_not_covers h]
    · rw [Framebuffer.cell_outside _ hgrid, Framebuffer.cell_outside _ hgrid]
  · rw [hflag, flagByte_eq_one, State.drawing_collided]
    constructor
    · rintro ⟨r, c, hr, hc, hset, h⟩
      rw [hcovers] at h
      rw [hflip hr hc h, Bool.not_eq_true'] at hset
      exact ⟨r, c, hr, hc, hset, h⟩
    · rintro ⟨r, c, hr, hc, hclear, h⟩
      exact ⟨r, c, hr, hc, by rw [hflip hr hc h, hclear, Bool.not_false], (hcovers r c).mpr h⟩

end Sys2Proof.Machine
end

section
/-! PROOFS. The timer and key instructions (45_timers_keys.md R170 to R179). -/

namespace Sys2Proof.Machine

open Sys2Proof.Safety

section
variable (s : State) (x : Reg)

/-! ### The frames of the timer writes -/

theorem State.onlyTimers_setDT_advance (b : Byte) : OnlyTimers s (s.setDT b).advance := by
  obtain ⟨⟨hi, hmem, hstack, -, hdisplay, hrun⟩, hdraws⟩ := KeepsAllButRegs.refl s
  exact ⟨fun _ _ => rfl, hi, hmem, hstack, hdisplay, hrun, hdraws⟩

theorem State.onlyTimers_setST_advance (b : Byte) : OnlyTimers s (s.setST b).advance := by
  obtain ⟨⟨hi, hmem, hstack, -, hdisplay, hrun⟩, hdraws⟩ := KeepsAllButRegs.refl s
  exact ⟨fun _ _ => rfl, hi, hmem, hstack, hdisplay, hrun, hdraws⟩

/-! ### What the executes answer -/

theorem exec_ldVxDT : exec (.ldVxDT x) s = .next (s.setV x s.dt).advance := rfl

theorem exec_ldDTVx : exec (.ldDTVx x) s = .next (s.setDT (s.getV x)).advance := rfl

theorem exec_ldSTVx : exec (.ldSTVx x) s = .next (s.setST (s.getV x)).advance := rfl

theorem exec_skp : exec (.skp x) s = .next (s.skipIf (s.keyIs (s.getV x))) := rfl

theorem exec_sknp : exec (.sknp x) s = .next (s.skipIf (!s.keyIs (s.getV x))) := rfl

variable {s}

theorem exec_ldVxK_of_key {k : Key} (h : s.key = some k) :
    exec (.ldVxK x) s = .next (s.setV x (zextKey k)).advance := by
  simp only [exec, execLdVxK, h]

theorem exec_ldVxK_of_nokey (h : s.key = none) : exec (.ldVxK x) s = .next s := by
  simp only [exec, execLdVxK, h]
  rfl

/-! ### The latched key against a byte -/

theorem State.keyIs_of_key {k : Key} (h : s.key = some k) (b : Byte) :
    s.keyIs b = decide (k.toNat = b.toNat) := by
  rw [Bool.eq_iff_iff, State.keyIs_iff, decide_eq_true_iff]
  simp [h]

theorem State.keyIs_of_nokey (h : s.key = none) (b : Byte) : s.keyIs b = false := by
  rw [State.keyIs, h]

end

/-- Settles O54: the one writes a register, the other the timer that drives the level. -/
theorem timerReadAndSoundTimerWrite : Obligations.TimerReadAndSoundTimerWrite := fun s x =>
  ⟨exec_writes_one_register (exec_ldVxDT s x),
    _, exec_ldSTVx s x, s.onlyTimers_setST_advance _, rfl, rfl, rfl, bne_iff_ne⟩

/-- Settles O56: SKP and SKNP are one `State.skipIf` with the condition and with its negation. -/
theorem keySkips : Obligations.KeySkips := by
  intro s x
  refine ⟨⟨_, exec_skp s x, s.onlyPc_skipIf _, fun k h => ?_, fun h => ?_⟩,
    _, exec_sknp s x, s.onlyPc_skipIf _, fun k h => ?_, fun h => ?_⟩
  · rw [State.keyIs_of_key h]
    by_cases hk : k.toNat = (s.getV x).toNat <;> simp [hk]
  · simp [State.keyIs_of_nokey h]
  · rw [State.keyIs_of_key h]
    by_cases hk : k.toNat = (s.getV x).toNat <;> simp [hk]
  · simp [State.keyIs_of_nokey h]

/-- Settles O57: with a key the execute writes one register, with none it answers the state itself. -/
theorem waitForKeyStoresTheKey : Obligations.WaitForKeyStoresTheKey := by
  intro s x
  refine ⟨fun k h => ?_, exec_ldVxK_of_nokey x⟩
  obtain ⟨t, ht, hregs, hpc, hx⟩ := exec_writes_one_register (exec_ldVxK_of_key x h)
  exact ⟨t, ht, hregs, hpc, by rw [hx, zextKey_toNat]⟩

end Sys2Proof.Machine
end

section
/-! PROOFS. What an instruction may write (10_state.md R11 to R27): each rule by the state that the
execute answers, one constructor at a time. -/

namespace Sys2Proof.Machine

open Sys2Proof.Safety

/-! ### The executes that answer more than one state -/

section
variable {s t : State}

theorem exec_ret_cases (h : exec .ret s = .next t) :
    (s.sp.val = 0 ∧ t = s.raiseHalt .stackUnderflow) ∨
      ∃ k : Fin 16, t = (s.popTo k).setPc (s.stack[k.val] + 2#16) := by
  by_cases hsp : s.sp.val = 0
  · rw [exec_ret_of_empty hsp] at h
    exact .inl ⟨hsp, (Host.Outcome.next.inj h).symm⟩
  · have hlt := s.sp.isLt
    have hk : s.sp.val = (⟨s.sp.val - 1, by omega⟩ : Fin 16).val + 1 := by simp; omega
    rw [exec_ret_of_not_empty hk] at h
    exact .inr ⟨_, (Host.Outcome.next.inj h).symm⟩

theorem exec_call_cases {nnn : Addr} (h : exec (.call nnn) s = .next t) :
    (s.sp.val = 16 ∧ t = s.raiseHalt .stackOverflow) ∨
      ∃ k : Fin 16, t = (s.pushAt k s.pc).setPc (zextAddr nnn) := by
  by_cases hsp : s.sp.val < 16
  · rw [exec_call_of_not_full hsp] at h
    exact .inr ⟨_, (Host.Outcome.next.inj h).symm⟩
  · have hfull : s.sp.val = 16 := by omega
    rw [exec_call_of_full hfull] at h
    exact .inl ⟨hfull, (Host.Outcome.next.inj h).symm⟩

theorem exec_ldVxK_cases {x : Reg} (h : exec (.ldVxK x) s = .next t) :
    (s.key = none ∧ t = s) ∨ ∃ k, s.key = some k ∧ t = (s.setV x (zextKey k)).advance := by
  cases hkey : s.key with
  | none =>
    rw [exec_ldVxK_of_nokey x hkey] at h
    exact .inl ⟨rfl, (Host.Outcome.next.inj h).symm⟩
  | some k =>
    rw [exec_ldVxK_of_key x hkey] at h
    exact .inr ⟨k, rfl, (Host.Outcome.next.inj h).symm⟩

theorem exec_ldVxMem_frame {x : Reg} (h : exec (.ldVxMem x) s = .next t) :
    ∃ v, t = { s with v := v, pc := s.pc + 2#16 } := by
  obtain ⟨v, hv⟩ := s.loadRegs_frame s.blockBase (x.val + 1)
  rw [exec_ldVxMem, hv] at h
  exact ⟨v, (Host.Outcome.next.inj h).symm⟩

end

/-! ### The state outside the registers and PC -/

/-- Settles O22: each constructor's next state is a chain of named updates, and the law of each update
says which fields it leaves. -/
theorem stateWrittenOnlyByItsInstructions : Obligations.StateWrittenOnlyByItsInstructions := by
  intro i s t h
  cases i with
  | ret =>
    obtain ⟨-, rfl⟩ | ⟨k, rfl⟩ := exec_ret_cases h <;> simp
  | call nnn =>
    obtain ⟨-, rfl⟩ | ⟨k, rfl⟩ := exec_call_cases h <;> simp
  | ldVxK x =>
    obtain ⟨-, rfl⟩ | ⟨k, -, rfl⟩ := exec_ldVxK_cases h <;> simp
  | ldVxMem x =>
    obtain ⟨v, rfl⟩ := exec_ldVxMem_frame h
    simp
  | addReg | sub | subn | shr | shl =>
    cases h
    simp [State.setResultAndFlag]
  | _ =>
    cases h
    simp

/-! ### The registers -/

theorem State.getV_setV_of_ne {s : State} {x r : Reg} {b : Byte} (h : (r == x) = false) :
    (s.setV x b).getV r = s.getV r := by
  rw [State.getV_setV, if_neg (Ne.symm (beq_eq_false_iff_ne.mp h))]

theorem State.getV_setResultAndFlag_of_ne {s : State} {x r : Reg} {res flag : Byte}
    (h : (r == x || r == 15) = false) : (s.setResultAndFlag x res flag).getV r = s.getV r := by
  rw [Bool.or_eq_false_iff] at h
  exact (State.getV_setV_of_ne h.2).trans (State.getV_setV_of_ne h.1)

/-- A register that an instruction may not write reads as before. -/
theorem getV_of_exec {i : Instr} {s t : State} {r : Reg} (h : exec i s = .next t)
    (hr : mayWriteReg i r = false) : t.getV r = s.getV r := by
  cases i with
  | ret => obtain ⟨-, rfl⟩ | ⟨k, rfl⟩ := exec_ret_cases h <;> rfl
  | call nnn => obtain ⟨-, rfl⟩ | ⟨k, rfl⟩ := exec_call_cases h <;> rfl
  | ldVxK x =>
    obtain ⟨-, rfl⟩ | ⟨k, -, rfl⟩ := exec_ldVxK_cases h
    · rfl
    · exact State.getV_setV_of_ne hr
  | ldVxMem x =>
    obtain ⟨t', ht', -, -, hregs⟩ := blockLoadReadsTheBytes s x
    cases h.symm.trans ht'
    rw [hregs r, if_neg (of_decide_eq_false hr)]
  | ldImm | addImm | ldReg | or | and | xor | ldVxDT =>
    cases h
    exact State.getV_setV_of_ne hr
  | rnd =>
    cases h
    exact State.getV_setV_of_ne (s := s.consumeRnd) hr
  | addReg | sub | subn | shr | shl =>
    cases h
    exact State.getV_setResultAndFlag_of_ne hr
  | drw x y n =>
    cases h
    exact State.getV_setV_of_ne (s := s.setFB _) hr
  | _ =>
    cases h
    rfl

/-- Settles O23, by its contrapositive: a register not listed reads as before. -/
theorem registersWrittenOnlyAsListed : Obligations.RegistersWrittenOnlyAsListed := by
  intro i s t r h hne
  by_contra hr
  exact hne (getV_of_exec h (Bool.eq_false_iff.mpr hr))

/-- The flag that an instruction leaves in VF after its result is a `flagByte`. -/
theorem flag_zero_or_one {i : Instr} {s t : State} {x : Reg} {res : Byte} {c : Bool}
    (hexec : exec i s = .next (s.setResultAndFlag x res (flagByte c)).advance)
    (h : exec i s = .next t) : t.getV 15 = 0#8 ∨ t.getV 15 = 1#8 := by
  obtain ⟨t', ht', -, -, -, hflag⟩ := exec_writes_result_and_flag hexec
  cases h.symm.trans ht'
  rw [hflag]
  exact flagByte_cases c

/-- Settles O25: the six write a result and a flag, or a picture and a flag. -/
theorem flagsAreZeroOrOne : Obligations.FlagsAreZeroOrOne := by
  intro i s t hi h
  cases i with
  | addReg x y => exact flag_zero_or_one (exec_addReg s x y) h
  | sub x y => exact flag_zero_or_one (exec_sub s x y) h
  | shr x y => exact flag_zero_or_one (exec_shr s x y) h
  | subn x y => exact flag_zero_or_one (exec_subn s x y) h
  | shl x y => exact flag_zero_or_one (exec_shl s x y) h
  | drw x y n =>
    obtain ⟨t', ht', -, -, -, hflag⟩ := exec_drw_spec s x y n
    cases h.symm.trans ht'
    rw [hflag]
    exact flagByte_cases _
  | _ => cases hi

/-! ### The program counter -/

theorem State.skipIf_pc (s : State) (c : Bool) :
    (s.skipIf c).pc = s.pc + 2#16 ∨ (s.skipIf c).pc = s.pc + 4#16 := by
  cases c
  · exact .inl rfl
  · exact .inr rfl

/-- Settles O24: one case for each kind of move, and in it the instructions of that kind. -/
theorem pcAdvancesByTwoUnlessListed : Obligations.PcAdvancesByTwoUnlessListed := by
  intro i s t h
  refine ⟨fun hi => ?two, fun hi => ?skip, fun hi => ?wait, fun hi => ?stay⟩
  case two =>
    cases i with
    | endSentinel | sys | ret | jp | call | jpV0 | seImm | sneImm | seReg | sneReg | skp | sknp
    | ldVxK => cases hi
    | ldVxMem x =>
      obtain ⟨v, rfl⟩ := exec_ldVxMem_frame h
      rfl
    | _ =>
      cases h
      rfl
  case skip =>
    cases i with
    | seImm | sneImm | seReg | sneReg | skp | sknp =>
      cases h
      exact s.skipIf_pc _
    | _ => cases hi
  case wait =>
    cases i with
    | ldVxK x => obtain ⟨hkey, rfl⟩ | ⟨k, hkey, rfl⟩ := exec_ldVxK_cases h <;> simp [hkey]
    | _ => cases hi
  case stay =>
    cases i with
    | endSentinel | sys =>
      cases h
      rfl
    | _ => cases hi

end Sys2Proof.Machine
end

section
/-! PROOFS. The step: fetch, execute, the count of the cycle, the frame boundary and the halts
(40_execution_cycle.md R81 to R98, 60_exceptions.md R190 to R199). -/

namespace Sys2Proof.Machine

open Sys2Proof.Safety

/-! ### The fetch -/

theorem toNat_and_0xFFF (w : Word) : (w &&& 0xFFF#16).toNat = w.toNat % 4096 := by
  rw [BitVec.toNat_and]
  exact Nat.and_two_pow_sub_one_eq_mod w.toNat 12

/-- Settles O12: the mask of an address is its remainder modulo 4096, which PC + 1 has modulo 2^16
too. -/
theorem fetchIsBigEndianAndMasked : Obligations.FetchIsBigEndianAndMasked := by
  intro s
  have hnext : ((s.pc + 1#16) &&& 0xFFF#16).toNat = (s.pc.toNat + 1) % 4096 := by
    rw [toNat_and_0xFFF, BitVec.toNat_add, BitVec.toNat_ofNat]
    omega
  refine ⟨?_, ?_, decodeBytes_fetchBytes s⟩
  · rw [toNat_and_0xFFF]
    exact BitVec.extractLsb'_append_eq_left
  · rw [hnext]
    exact BitVec.extractLsb'_append_eq_right

theorem decodeWord_of_decodeBytes {s : State} {i : Instr} {rest : List Byte}
    (h : decodeBytes s.fetchBytes = .ok (i, rest)) : decodeWord s.fetchWord = .ok i := by
  rw [decodeBytes_fetchBytes] at h
  cases hd : decodeWord s.fetchWord with
  | error e =>
    rw [hd] at h
    cases h
  | ok j =>
    rw [hd] at h
    cases h
    rfl

/-! ### A step by the outcome of its execute -/

section
variable {cpf : Nat} {s t : State} {i : Instr}

theorem goesOn_of_exec (he : exec i s = .next t) (ht : t.halted = false) : GoesOn s t := by
  obtain ⟨c, -, hc⟩ | ⟨u, hu, hgo⟩ := exec_cases i s
  · cases he.symm.trans hc
    cases ht
  · cases he.symm.trans hu
    exact hgo

theorem stepAt_of_exec (hr : Running s) (hd : decodeWord s.fetchWord = .ok i)
    (he : exec i s = .next t) :
    stepAt cpf s = .next (if t.halted then t else t.countCycle cpf) := by
  rw [stepAt_of_decode hr hd, he, finishCycle]

theorem stepAt_of_goes_on (hr : Running s) (hd : decodeWord s.fetchWord = .ok i)
    (he : exec i s = .next t) (ht : t.halted = false) :
    stepAt cpf s = .next (t.countCycle cpf) := by
  rw [stepAt_of_exec hr hd he, ht]
  rfl

theorem stepAt_of_halts (hr : Running s) (hd : decodeWord s.fetchWord = .ok i) {c : Cause}
    (he : exec i s = .next (s.raiseHalt c)) : stepAt cpf s = .next (s.raiseHalt c) :=
  stepAt_of_exec hr hd he

theorem exists_exec (i : Instr) (s : State) : ∃ t, exec i s = .next t := by
  obtain ⟨c, -, h⟩ | ⟨t, h, -⟩ := exec_cases i s
  · exact ⟨_, h⟩
  · exact ⟨t, h⟩

/-- A step after which the core is not halted: the fetched word is an instruction that goes on. -/
theorem stepAt_cases_of_not_halted (h : stepAt cpf s = .next t) (ht : t.halted = false) :
    ∃ i u, decodeWord s.fetchWord = .ok i ∧ exec i s = .next u ∧ KeepsRun s u ∧
      t = u.countCycle cpf := by
  obtain ⟨-, ⟨c, -, rfl⟩ | ⟨i, u, hd, he, ⟨hrun, -⟩, rfl⟩⟩ := stepAt_cases h
  · cases ht
  · exact ⟨i, u, hd, he, hrun, rfl⟩

end

/-- Settles O11: the bytes fetched decode as the word does, and every execute answers a next state. -/
theorem stepRunsTheDecodedInstruction : Obligations.StepRunsTheDecodedInstruction := by
  intro cpf s i rest hr hd
  obtain ⟨t, ht⟩ := exists_exec i s
  exact ⟨⟨t, ht, stepAt_of_exec hr (decodeWord_of_decodeBytes hd) ht⟩, rfl⟩

/-- Settles O17: only a running core has a step. -/
theorem endedCoreHasNoStep : Obligations.EndedCoreHasNoStep := by
  intro cpf s hend t h
  obtain ⟨⟨hhalted, hclosed⟩, -⟩ := stepAt_cases h
  rw [hhalted, hclosed] at hend
  simp at hend

/-- Settles O18: an Illegal word halts, and every execute answers a next state. -/
theorem runningCoreAlwaysSteps : Obligations.RunningCoreAlwaysSteps := by
  intro cpf s hr
  cases hd : decodeWord s.fetchWord with
  | error e => exact ⟨_, stepAt_of_illegal hr hd⟩
  | ok i =>
    obtain ⟨t, ht⟩ := exists_exec i s
    exact ⟨_, stepAt_of_exec hr hd ht⟩

/-! ### The count of the cycle and the frame boundary -/

theorem tickDown_toNat (b : Byte) : (tickDown b).toNat = b.toNat - 1 := by
  unfold tickDown
  split
  case isTrue h => rw [h]; rfl
  case isFalse h => bv_omega

theorem State.poll_of_cons {s : State} {p : Poll} {ps : List Poll} (h : s.polls = p :: ps) :
    s.poll = p := by rw [State.poll, h, List.headD_cons]

theorem State.poll_of_nil {s : State} (h : s.polls = []) :
    s.poll = ⟨Config.keyIn s.frames, Config.closeReq s.frames⟩ := by
  rw [State.poll, h, List.headD_nil]

/-- Settles O13: no instruction writes `cyc`. -/
theorem cycleInsideATick : Obligations.CycleInsideATick := by
  intro cpf s t i hr hd he ht hcyc
  obtain ⟨⟨-, -, -, hkeep, -⟩, -⟩ := goesOn_of_exec he ht
  rw [← hkeep] at hcyc
  rw [stepAt_of_goes_on hr hd he ht, t.countCycle_inside hcyc, hkeep]

/-- Settles O14: the instruction has left `cyc`, the polls and the count of boundaries as they were,
and `closed` at 0. -/
theorem frameBoundaryEffects : Obligations.FrameBoundaryEffects := by
  intro cpf s t i hr hd he ht hcyc
  obtain ⟨⟨-, -, hclosed, hkeep, -, -, hframes, hpolls⟩, -⟩ := goesOn_of_exec he ht
  rw [hr.2] at hclosed
  rw [← hkeep] at hcyc
  rw [← hframes, ← hpolls]
  refine ⟨t.frameBoundary, ?step, tickDown_toNat _, tickDown_toNat _, rfl, rfl, rfl, rfl,
    fun p ps h => ?known, fun h => ?free, rfl⟩
  case step => rw [stepAt_of_goes_on hr hd he ht, t.countCycle_boundary hcyc]
  case known => simp [State.poll_of_cons h, hclosed]
  case free => simp [State.poll_of_nil h, hclosed]

/-- Settles O27: no instruction writes these fields, and the count of a cycle inside a tick writes
`cyc` alone. -/
theorem inputsAndFrameChangeOnlyAtABoundary : Obligations.InputsAndFrameChangeOnlyAtABoundary := by
  intro cpf s t h
  obtain ⟨-, ⟨c, -, rfl⟩ | ⟨i, u, -, -, ⟨hrun, -⟩, rfl⟩⟩ := stepAt_cases h
  · exact ⟨fun _ => ⟨rfl, rfl, rfl, rfl, rfl⟩, fun hne => absurd rfl hne⟩
  · obtain ⟨-, -, hclosed, hkeep, hkey, hfbOut, hframes, hpolls⟩ := hrun
    rw [← hkeep]
    constructor
    · intro hcyc
      rw [u.countCycle_inside hcyc]
      exact ⟨hkey, hclosed, hfbOut, hframes, hpolls⟩
    · intro hne
      by_cases hcyc : u.cyc + 1 = cpf
      · rw [u.countCycle_boundary hcyc]
        exact ⟨hcyc, rfl⟩
      · rw [u.countCycle_inside hcyc] at hne
        exact absurd hfbOut hne

theorem State.countCycle_dt_toNat (t : State) (cpf : Nat) :
    (t.countCycle cpf).dt.toNat = if t.cyc + 1 = cpf then t.dt.toNat - 1 else t.dt.toNat := by
  split
  case isTrue h => rw [t.countCycle_boundary h, State.frameBoundary_dt, tickDown_toNat]
  case isFalse h => rw [t.countCycle_inside h]

theorem State.countCycle_st_toNat (t : State) (cpf : Nat) :
    (t.countCycle cpf).st.toNat = if t.cyc + 1 = cpf then t.st.toNat - 1 else t.st.toNat := by
  split
  case isTrue h => rw [t.countCycle_boundary h, State.frameBoundary_st, tickDown_toNat]
  case isFalse h => rw [t.countCycle_inside h]

/-- Settles O28: an instruction other than the timer's own load leaves the timer to the count of the
cycle. -/
theorem timersCountDownAtBoundariesOnly : Obligations.TimersCountDownAtBoundariesOnly := by
  intro cpf s t h ht
  obtain ⟨i, u, hd, he, ⟨-, -, -, hkeep, -⟩, rfl⟩ := stepAt_cases_of_not_halted h ht
  obtain ⟨-, -, -, -, hdt, hst, -⟩ := stateWrittenOnlyByItsInstructions i s u he
  rw [hd, State.countCycle_dt_toNat, State.countCycle_st_toNat, hkeep]
  constructor
  · intro hi
    have hdt : u.dt = s.dt := by
      by_contra hne
      obtain ⟨x, rfl⟩ := hdt hne
      exact hi x rfl
    rw [hdt]
  · intro hi
    have hst : u.st = s.st := by
      by_contra hne
      obtain ⟨x, rfl⟩ := hst hne
      exact hi x rfl
    rw [hst]

/-- Settles O55: the boundary that the last cycle brings counts down what the instruction wrote. -/
theorem delayTimerWriteAndTheLastCycle : Obligations.DelayTimerWriteAndTheLastCycle := by
  intro s x
  refine ⟨⟨_, exec_ldDTVx s x, s.onlyTimers_setDT_advance _, rfl, rfl, rfl⟩, ?_⟩
  intro cpf hr hd hcyc
  refine ⟨_, stepAt_of_goes_on hr hd (exec_ldDTVx s x) hr.1, ?_⟩
  rw [State.countCycle_dt_toNat, if_pos (by simpa using hcyc)]
  rfl

/-- Settles O58: a waiting LD Vx,K answers the state it is given. -/
theorem waitingCycleOnlyCounts : Obligations.WaitingCycleOnlyCounts := fun _ _ x hr hd hkey =>
  stepAt_of_goes_on hr hd (exec_ldVxK_of_nokey x hkey) hr.1

/-! ### The halts -/

/-- Settles O15: the Illegal word is the one case of a step that executes nothing. -/
theorem illegalWordHaltsTheCore : Obligations.IllegalWordHaltsTheCore := fun _ s hr hd =>
  ⟨_, stepAt_of_illegal hr hd, s.onlyHalt_raiseHalt _, rfl⟩

theorem Cause.code_ne_zero {c : Cause} (h : c ≠ .none) : c.code ≠ 0#3 := by
  revert h
  cases c <;> decide

/-- Settles O19: a step of a running core that does not raise a halt leaves it running. -/
theorem haltIsPrecise : Obligations.HaltIsPrecise := by
  intro cpf s t h ht
  obtain ⟨hr, ⟨c, hc, rfl⟩ | ⟨i, u, -, -, ⟨⟨hhalted, -⟩, -⟩, rfl⟩⟩ := stepAt_cases h
  · exact ⟨s.onlyHalt_raiseHalt c, Cause.code_ne_zero hc⟩
  · rw [State.countCycle_halted, hhalted, hr.1] at ht
    cases ht

/-- An instruction that halts a core is END, SYS, CALL with a full stack or RET with an empty one. -/
theorem exec_halts {i : Instr} {s t : State} (he : exec i s = .next t) (hs : s.halted = false)
    (ht : t.halted = true) : (∃ nnn, i = .sys nnn) ∨ i = .endSentinel ∨
      ((∃ nnn, i = .call nnn) ∧ s.sp.val = 16) ∨ (i = .ret ∧ s.sp.val = 0) := by
  have hne : t.halted ≠ s.halted := by simp [hs, ht]
  obtain ⟨-, -, -, -, -, -, -, -, hwriters, -⟩ := stateWrittenOnlyByItsInstructions i s t he
  obtain rfl | ⟨nnn, rfl⟩ | ⟨nnn, rfl⟩ | rfl := hwriters (.inl hne)
  · exact .inr (.inl rfl)
  · exact .inl ⟨nnn, rfl⟩
  · obtain ⟨hsp, -⟩ | ⟨k, rfl⟩ := exec_call_cases he
    · exact .inr (.inr (.inl ⟨⟨nnn, rfl⟩, hsp⟩))
    · exact absurd rfl hne
  · obtain ⟨hsp, -⟩ | ⟨k, rfl⟩ := exec_ret_cases he
    · exact .inr (.inr (.inr ⟨rfl, hsp⟩))
    · exact absurd rfl hne

/-- Settles O20: each of the five events raises its halt, and a step that halts is one of them. -/
theorem haltCausesAreExact : Obligations.HaltCausesAreExact := by
  intro cpf s t h
  obtain ⟨hr, -⟩ := stepAt_cases h
  have hraised {c : Cause} (hstep : stepAt cpf s = .next (s.raiseHalt c)) :
      t.halted = true ∧ t.cause = c := by
    cases h.symm.trans hstep
    exact ⟨rfl, rfl⟩
  refine ⟨?illegal, ?sys, ?endSentinel, ?call, ?ret, ?only⟩
  case illegal =>
    rintro ⟨e, hd⟩
    exact hraised (stepAt_of_illegal hr hd)
  case sys =>
    rintro ⟨nnn, hd⟩
    exact hraised (stepAt_of_halts hr hd (exec_sys s nnn))
  case endSentinel =>
    intro hd
    exact hraised (stepAt_of_halts hr hd (exec_endSentinel s))
  case call =>
    rintro ⟨⟨nnn, hd⟩, hsp⟩
    exact hraised (stepAt_of_halts hr hd (exec_call_of_full hsp))
  case ret =>
    rintro ⟨hd, hsp⟩
    exact hraised (stepAt_of_halts hr hd (exec_ret_of_empty hsp))
  case only =>
    intro ht
    cases hd : decodeWord s.fetchWord with
    | error e => exact .inl ⟨e, rfl⟩
    | ok i =>
      obtain ⟨u, hu⟩ := exists_exec i s
      have huh : u.halted = true := by
        by_contra hgo
        have hstep := stepAt_of_goes_on (cpf := cpf) hr hd hu (Bool.eq_false_iff.mpr hgo)
        cases h.symm.trans hstep
        exact hgo (by rwa [State.countCycle_halted] at ht)
      obtain ⟨nnn, rfl⟩ | rfl | ⟨⟨nnn, rfl⟩, hsp⟩ | ⟨rfl, hsp⟩ := exec_halts hu hr.1 huh
      · exact .inr (.inl ⟨nnn, rfl⟩)
      · exact .inr (.inr (.inl rfl))
      · exact .inr (.inr (.inr (.inl ⟨⟨nnn, rfl⟩, hsp⟩)))
      · exact .inr (.inr (.inr (.inr ⟨rfl, hsp⟩)))

/-! ### The invariant -/

/-- An instruction that goes on writes no field of the run state, and keeps memory canonical. -/
theorem inv_of_goesOn {cpf : Nat} {s t : State} (hinv : Inv cpf s) (h : GoesOn s t) :
    Inv cpf t := by
  obtain ⟨⟨hhalted, hcause, hclosed, hcyc, -, hfbOut, hframes, -⟩, hmem⟩ := h
  constructor
  · exact hmem hinv.mem_wf
  · rw [hcause, hhalted]; exact hinv.cause_iff
  · rw [hcyc]; exact hinv.cyc_lt
  · rw [hhalted, hclosed]; exact hinv.not_both
  · rw [hclosed, hcyc]; exact hinv.closed_at_boundary
  · rw [hfbOut, hframes]; exact hinv.presented_iff

section
variable {cpf : Nat} {s : State} (hinv : Inv cpf s) (hr : Running s)
include hinv hr

theorem inv_raiseHalt {c : Cause} (hc : c ≠ .none) : Inv cpf (s.raiseHalt c) where
  mem_wf := hinv.mem_wf
  cause_iff := by simp [hc]
  cyc_lt := hinv.cyc_lt
  not_both := by simp [hr.2]
  closed_at_boundary := by simp [hr.2]
  presented_iff := hinv.presented_iff

/-- The count of a cycle that does not fill the tick leaves `cyc` below `CYCLES_PER_FRAME`, and a
boundary starts it again at 0. -/
theorem inv_countCycle : Inv cpf (s.countCycle cpf) := by
  have hcause := hinv.cause_iff
  have hlt := hinv.cyc_lt
  by_cases hcyc : s.cyc + 1 = cpf
  · rw [s.countCycle_boundary hcyc]
    exact
      { mem_wf := hinv.mem_wf
        cause_iff := hcause
        cyc_lt := by rw [State.frameBoundary_cyc]; omega
        not_both := by simp [hr.1]
        closed_at_boundary := fun _ => rfl
        presented_iff := by simp }
  · rw [s.countCycle_inside hcyc]
    exact
      { mem_wf := hinv.mem_wf
        cause_iff := hcause
        cyc_lt := Nat.lt_of_le_of_ne hlt hcyc
        not_both := hinv.not_both
        closed_at_boundary := by simp [hr.2]
        presented_iff := hinv.presented_iff }

end

/-- Settles O21: a step halts, or it is an instruction that goes on and then the count of the cycle,
and each of these keeps the invariant of a running core. -/
theorem stepKeepsTheInvariant : Obligations.StepKeepsTheInvariant := by
  intro cpf s t hinv h
  obtain ⟨hr, ⟨c, hc, rfl⟩ | ⟨i, u, -, -, hgo, rfl⟩⟩ := stepAt_cases h
  · exact inv_raiseHalt hinv hr hc
  · have hrun : KeepsRun s u := hgo.1
    obtain ⟨hhalted, -, hclosed, -⟩ := hrun
    exact inv_countCycle (inv_of_goesOn hinv hgo) ⟨hhalted.trans hr.1, hclosed.trans hr.2⟩

end Sys2Proof.Machine
end

section
/-! PROOFS. Bits 15:12 of PC, I and the stack entries are unobservable (10_state.md R14 (c), R17): two
states that differ in them alone read, execute and count alike. -/

namespace Sys2Proof.Machine

open Sys2Proof.Safety

/-! ### Addresses equal in their low 12 bits -/

theorem add_low_bits {u v : Word} (h : v.toNat % 4096 = u.toNat % 4096) (w : Word) :
    (v + w).toNat % 4096 = (u + w).toNat % 4096 := by
  rw [BitVec.toNat_add, BitVec.toNat_add]
  omega

theorem Memory.writeBytes_congr (m : Memory) {a a' : Nat} (h : a' % 4096 = a % 4096)
    (bs : List Byte) : m.writeBytes a' bs = m.writeBytes a bs := by
  induction bs generalizing m a a' with
  | nil => rfl
  | cons b bs ih =>
    rw [Memory.writeBytes, Memory.writeBytes, Memory.write, Memory.write, h]
    exact ih _ (by omega)

theorem Drawing.plotRows_congr (d : Drawing) (m : Memory) {a a' : Nat} (h : a' % 4096 = a % 4096)
    (Y X n : Nat) : d.plotRows m a' Y X n = d.plotRows m a Y X n := by
  induction n with
  | zero => rfl
  | succ n ih =>
    have hread : m.read (a' + n) = m.read (a + n) := m.read_congr (by omega)
    rw [Drawing.plotRows, Drawing.plotRows, ih, hread]

end Sys2Proof.Machine

namespace Sys2Proof.Safety

open Sys2Proof.Machine

/-! ### The relation under the operations -/

section
variable {s t : State}

namespace SameButHighAddressBits

variable (h : SameButHighAddressBits s t)
include h

/-- A related state is the same record with three fields replaced. -/
theorem exists_eq : ∃ pc i stack,
    pc.toNat % 4096 = s.pc.toNat % 4096 ∧ i.toNat % 4096 = s.i.toNat % 4096 ∧
      (∀ k : Fin 16, stack[k.val].toNat % 4096 = s.stack[k.val].toNat % 4096) ∧
      t = { s with pc := pc, i := i, stack := stack } := by
  obtain ⟨hpc, hi, hstack, heq⟩ := h
  exact ⟨t.pc, t.i, t.stack, hpc, hi, hstack, heq⟩

theorem pc_low : t.pc.toNat % 4096 = s.pc.toNat % 4096 := h.1

theorem blockBase_low : t.blockBase % 4096 = s.blockBase % 4096 := h.2.1

theorem stack_low (k : Fin 16) : t.stack[k.val].toNat % 4096 = s.stack[k.val].toNat % 4096 :=
  h.2.2.1 k

/-- What does not depend on the three fields is the same in both. -/
theorem read_eq {α : Type} {f : State → α}
    (hf : ∀ u pc i stack, f { u with pc := pc, i := i, stack := stack } = f u) : f t = f s := by
  obtain ⟨pc, i, stack, -, -, -, rfl⟩ := h.exists_eq
  exact hf s pc i stack

theorem sp_eq : t.sp = s.sp := h.read_eq (f := State.sp) fun _ _ _ _ => rfl

theorem key_eq : t.key = s.key := h.read_eq (f := State.key) fun _ _ _ _ => rfl

theorem cyc_eq : t.cyc = s.cyc := h.read_eq (f := State.cyc) fun _ _ _ _ => rfl

theorem halted_eq : t.halted = s.halted := h.read_eq (f := State.halted) fun _ _ _ _ => rfl

theorem closed_eq : t.closed = s.closed := h.read_eq (f := State.closed) fun _ _ _ _ => rfl

theorem memRead {a a' : Nat} (ha : a' % 4096 = a % 4096) : t.memRead a' = s.memRead a :=
  (h.read_eq (f := (State.memRead · a')) fun _ _ _ _ => rfl).trans (s.mem.read_congr ha)

/-- An operation that neither reads nor writes the three fields keeps the relation. -/
theorem map {f : State → State} (hf : ∀ u pc i stack,
    f { u with pc := pc, i := i, stack := stack } =
      { f u with pc := pc, i := i, stack := stack }) :
    SameButHighAddressBits (f s) (f t) := by
  obtain ⟨pc, i, stack, hpc, hi, hstack, rfl⟩ := h.exists_eq
  have hs : f s = { f s with pc := s.pc, i := s.i, stack := s.stack } := hf s s.pc s.i s.stack
  rw [hf s pc i stack, hs]
  exact ⟨hpc, hi, hstack, rfl⟩

theorem setV (x : Reg) (b : Byte) : SameButHighAddressBits (s.setV x b) (t.setV x b) :=
  h.map (f := (State.setV · x b)) fun _ _ _ _ => rfl

theorem setResultAndFlag (x : Reg) (res flag : Byte) :
    SameButHighAddressBits (s.setResultAndFlag x res flag) (t.setResultAndFlag x res flag) :=
  (h.setV x res).setV regVF flag

theorem setDT (b : Byte) : SameButHighAddressBits (s.setDT b) (t.setDT b) :=
  h.map (f := (State.setDT · b)) fun _ _ _ _ => rfl

theorem setST (b : Byte) : SameButHighAddressBits (s.setST b) (t.setST b) :=
  h.map (f := (State.setST · b)) fun _ _ _ _ => rfl

theorem setFB (fb : Framebuffer) : SameButHighAddressBits (s.setFB fb) (t.setFB fb) :=
  h.map (f := (State.setFB · fb)) fun _ _ _ _ => rfl

theorem consumeRnd : SameButHighAddressBits s.consumeRnd t.consumeRnd :=
  h.map (f := State.consumeRnd) fun _ _ _ _ => rfl

theorem raiseHalt (c : Cause) : SameButHighAddressBits (s.raiseHalt c) (t.raiseHalt c) :=
  h.map (f := (State.raiseHalt · c)) fun _ _ _ _ => rfl

theorem popTo (k : Fin 16) : SameButHighAddressBits (s.popTo k) (t.popTo k) :=
  h.map (f := (State.popTo · k)) fun _ _ _ _ => rfl

theorem countCycle (cpf : Nat) : SameButHighAddressBits (s.countCycle cpf) (t.countCycle cpf) := by
  have hcycs := h.cyc_eq
  by_cases hcyc : s.cyc + 1 = cpf
  · rw [s.countCycle_boundary hcyc, t.countCycle_boundary (hcycs ▸ hcyc)]
    exact h.map (f := State.frameBoundary) fun _ _ _ _ => rfl
  · rw [s.countCycle_inside hcyc, t.countCycle_inside (hcycs ▸ hcyc)]
    exact h.map (f := fun u => { u with cyc := u.cyc + 1 }) fun _ _ _ _ => rfl

theorem setPc {u v : Word} (huv : v.toNat % 4096 = u.toNat % 4096) :
    SameButHighAddressBits (s.setPc u) (t.setPc v) := by
  obtain ⟨pc, i, stack, -, hi, hstack, rfl⟩ := h.exists_eq
  exact ⟨huv, hi, hstack, rfl⟩

theorem advance : SameButHighAddressBits s.advance t.advance := h.setPc (add_low_bits h.pc_low _)

theorem skipIf (c : Bool) : SameButHighAddressBits (s.skipIf c) (t.skipIf c) := by
  cases c
  · exact h.advance
  · exact h.setPc (add_low_bits h.pc_low _)

theorem setI {u v : Word} (huv : v.toNat % 4096 = u.toNat % 4096) :
    SameButHighAddressBits (s.setI u) (t.setI v) := by
  obtain ⟨pc, i, stack, hpc, -, hstack, rfl⟩ := h.exists_eq
  exact ⟨hpc, huv, hstack, rfl⟩

theorem pushAt_pc (k : Fin 16) : SameButHighAddressBits (s.pushAt k s.pc) (t.pushAt k t.pc) := by
  obtain ⟨pc, i, stack, hpc, hi, hstack, rfl⟩ := h.exists_eq
  refine ⟨hpc, hi, fun j => ?_, rfl⟩
  simp only [State.pushAt_stack, Vector.getElem_set]
  split
  · exact hpc
  · exact hstack j

theorem storeBytes (bs : List Byte) :
    SameButHighAddressBits (s.storeBytes s.blockBase bs) (t.storeBytes t.blockBase bs) := by
  obtain ⟨pc, i, stack, hpc, hi, hstack, rfl⟩ := h.exists_eq
  refine ⟨hpc, hi, hstack, ?_⟩
  simp only [State.storeBytes, State.blockBase, Memory.writeBytes_congr _ hi]

theorem loadRegs (n : Nat) :
    SameButHighAddressBits (s.loadRegs s.blockBase n) (t.loadRegs t.blockBase n) := by
  induction n with
  | zero => exact h
  | succ n ih =>
    have hbase := h.blockBase_low
    have hread : t.memRead (t.blockBase + n) = s.memRead (s.blockBase + n) :=
      h.memRead (by omega)
    rw [State.loadRegs, State.loadRegs, hread]
    exact ih.setV _ _

theorem drawing (x y : Reg) (n : Nibble) : t.drawing x y n = s.drawing x y n := by
  obtain ⟨pc, i, stack, -, hi, -, rfl⟩ := h.exists_eq
  exact Drawing.plotRows_congr _ _ hi _ _ _

/-! ### The relation under an execute -/

theorem exec_ret :
    ∃ a b, exec .ret s = .next a ∧ exec .ret t = .next b ∧ SameButHighAddressBits a b := by
  by_cases hsp : s.sp.val = 0
  · have hsp' : t.sp.val = 0 := by rw [h.sp_eq, hsp]
    exact ⟨_, _, exec_ret_of_empty hsp, exec_ret_of_empty hsp', h.raiseHalt _⟩
  · have hlt := s.sp.isLt
    obtain ⟨k, hk⟩ : ∃ k : Fin 16, s.sp.val = k.val + 1 :=
      ⟨⟨s.sp.val - 1, by omega⟩, (Nat.succ_pred_eq_of_ne_zero hsp).symm⟩
    have hk' : t.sp.val = k.val + 1 := by rw [h.sp_eq, hk]
    exact ⟨_, _, exec_ret_of_not_empty hk, exec_ret_of_not_empty hk',
      (h.popTo k).setPc (add_low_bits (h.stack_low k) _)⟩

theorem exec_call (nnn : Addr) : ∃ a b, exec (.call nnn) s = .next a ∧
    exec (.call nnn) t = .next b ∧ SameButHighAddressBits a b := by
  by_cases hsp : s.sp.val < 16
  · have hsp' : t.sp.val < 16 := by rwa [h.sp_eq]
    refine ⟨_, _, exec_call_of_not_full hsp, exec_call_of_not_full hsp', ?_⟩
    simp only [h.sp_eq]
    exact (h.pushAt_pc _).setPc rfl
  · have hfull : s.sp.val = 16 := by omega
    have hfull' : t.sp.val = 16 := by rw [h.sp_eq, hfull]
    exact ⟨_, _, exec_call_of_full hfull, exec_call_of_full hfull', h.raiseHalt _⟩

theorem exec_ldVxK (x : Reg) : ∃ a b, exec (.ldVxK x) s = .next a ∧
    exec (.ldVxK x) t = .next b ∧ SameButHighAddressBits a b := by
  have hkeys := h.key_eq
  cases hkey : s.key with
  | none =>
    exact ⟨_, _, exec_ldVxK_of_nokey x hkey, exec_ldVxK_of_nokey x (hkeys.trans hkey), h⟩
  | some k =>
    exact ⟨_, _, exec_ldVxK_of_key x hkey, exec_ldVxK_of_key x (hkeys.trans hkey),
      (h.setV _ _).advance⟩

theorem exec_drw (x y : Reg) (n : Nibble) : ∃ a b, exec (.drw x y n) s = .next a ∧
    exec (.drw x y n) t = .next b ∧ SameButHighAddressBits a b := by
  refine ⟨_, _, Machine.exec_drw s x y n, Machine.exec_drw t x y n, ?_⟩
  rw [h.drawing]
  exact ((h.setFB _).setV _ _).advance

/-- Registers, timers, the key latch and the draws read the same in both states, so an execute applies
the same operations to the two. -/
theorem exec (i : Instr) :
    ∃ a b, exec i s = .next a ∧ exec i t = .next b ∧ SameButHighAddressBits a b := by
  obtain ⟨pc, idx, stack, hpc, hi, hstack, rfl⟩ := h.exists_eq
  cases i with
  | ret => exact h.exec_ret
  | call nnn => exact h.exec_call nnn
  | ldVxK x => exact h.exec_ldVxK x
  | drw x y n => exact h.exec_drw x y n
  | endSentinel | sys => exact ⟨_, _, rfl, rfl, h.raiseHalt _⟩
  | cls => exact ⟨_, _, rfl, rfl, (h.setFB _).advance⟩
  | jp | jpV0 => exact ⟨_, _, rfl, rfl, h.setPc rfl⟩
  | seImm | sneImm | seReg | sneReg | skp | sknp => exact ⟨_, _, rfl, rfl, h.skipIf _⟩
  | ldImm | addImm | ldReg | or | and | xor | ldVxDT =>
    exact ⟨_, _, rfl, rfl, (h.setV _ _).advance⟩
  | addReg | sub | shr | subn | shl =>
    exact ⟨_, _, rfl, rfl, (h.setResultAndFlag _ _ _).advance⟩
  | rnd => exact ⟨_, _, rfl, rfl, (h.consumeRnd.setV _ _).advance⟩
  | ldI | ldFVx => exact ⟨_, _, rfl, rfl, (h.setI rfl).advance⟩
  | addIVx => exact ⟨_, _, rfl, rfl, (h.setI (add_low_bits hi _)).advance⟩
  | ldDTVx => exact ⟨_, _, rfl, rfl, (h.setDT _).advance⟩
  | ldSTVx => exact ⟨_, _, rfl, rfl, (h.setST _).advance⟩
  | ldBVx | ldMemVx => exact ⟨_, _, rfl, rfl, (h.storeBytes _).advance⟩
  | ldVxMem => exact ⟨_, _, rfl, rfl, (h.loadRegs _).advance⟩

/-! ### The relation under a step -/

theorem fetchWord : t.fetchWord = s.fetchWord := by
  have hpc := h.pc_low
  have hnext : (t.pc.toNat + 1) % 4096 = (s.pc.toNat + 1) % 4096 := by omega
  rw [State.fetchWord, State.fetchWord, h.memRead hpc, h.memRead hnext]

theorem running (hr : Running s) : Running t := ⟨h.halted_eq.trans hr.1, h.closed_eq.trans hr.2⟩

theorem stepAt_of_running (hr : Running s) (cpf : Nat) : ∃ a b,
    stepAt cpf s = .next a ∧ stepAt cpf t = .next b ∧ SameButHighAddressBits a b := by
  have hr' := h.running hr
  cases hd : decodeWord s.fetchWord with
  | error e =>
    have hd' : decodeWord t.fetchWord = .error e := h.fetchWord ▸ hd
    exact ⟨_, _, stepAt_of_illegal hr hd, stepAt_of_illegal hr' hd', h.raiseHalt _⟩
  | ok i =>
    have hd' : decodeWord t.fetchWord = .ok i := h.fetchWord ▸ hd
    obtain ⟨a, b, ha, hb, hab⟩ := h.exec i
    refine ⟨_, _, stepAt_of_exec hr hd ha, stepAt_of_exec hr' hd' hb, ?_⟩
    rw [hab.halted_eq]
    split
    · exact hab
    · exact hab.countCycle cpf

theorem stepAt_of_ended (hend : ¬Running s) (cpf : Nat) : stepAt cpf t = stepAt cpf s := by
  unfold stepAt
  rw [h.halted_eq, h.closed_eq]
  by_cases hhalted : s.halted = true
  · rw [if_pos hhalted, if_pos hhalted]
  · have hclosed : s.closed = true := by
      by_contra hopen
      exact hend ⟨Bool.eq_false_iff.mpr hhalted, Bool.eq_false_iff.mpr hopen⟩
    rw [if_neg hhalted, if_neg hhalted, if_pos hclosed, if_pos hclosed]

end SameButHighAddressBits

end

end Sys2Proof.Safety

namespace Sys2Proof.Machine

open Sys2Proof.Safety

/-- Settles O26: two running states step to related ones, and of two ended states neither has a
step. -/
theorem onlyLowAddressBitsMatter : Obligations.OnlyLowAddressBitsMatter := by
  intro cpf s t h
  by_cases hr : Running s
  · obtain ⟨a, b, ha, hb, hab⟩ := h.stepAt_of_running hr cpf
    rw [ha, hb]
    refine ⟨fun u hu => ?_, fun r hr => ?_, fun r hr => ?_⟩
    · cases hu
      exact ⟨b, rfl, hab⟩
    · cases hr
    · cases hr
  · rw [h.stepAt_of_ended hr cpf]
    refine ⟨fun u hu => ?_, fun _ hf => hf, fun _ hf => hf⟩
    obtain ⟨hrun, -⟩ := stepAt_cases hu
    exact absurd hrun hr

end Sys2Proof.Machine
end
